-- ==== Sys2Proof/Word.lean ====
section
/-! DEFINITION. The plain data types everything else is written over: bytes, 16-bit values, the four
ports and a table with one entry for each of them, conduit numbers and segment handles. -/

namespace Sys2Proof

/-- One byte of the serial port, most significant bit shifted first (R149). -/
abbrev Byte := BitVec 8

/-- A two-byte field: a sequence, a length argument, an attention argument (R167). -/
abbrev Half := BitVec 16

/-- The interval counter and the deadlines compared with it are 32-bit counts (R179). -/
abbrev Tick := BitVec 32

/-- A conduit number, 0 to 23 (R24). -/
abbrev ConduitNo := Fin 24

/-- A segment descriptor's permanent number, 0 to 255 (R3). -/
abbrev Handle := Fin 256

/-- The four host ports, numbered 0 to 3. -/
inductive Port where
  | p0 | p1 | p2 | p3
  deriving DecidableEq, Repr

namespace Port

/-- The number a port is written as in every byte layout (R167). -/
def toNat : Port → Nat
  | p0 => 0
  | p1 => 1
  | p2 => 2
  | p3 => 3

/-- The ports in ascending order: the order of every "in ascending port order" of the rules. -/
def all : List Port := [p0, p1, p2, p3]

end Port

/-- One entry for each port. -/
structure PerPort (α : Type) where
  p0 : α
  p1 : α
  p2 : α
  p3 : α
  deriving DecidableEq, Repr

namespace PerPort

variable {α β : Type}

/-- The entry of one port. -/
def get (t : PerPort α) : Port → α
  | .p0 => t.p0
  | .p1 => t.p1
  | .p2 => t.p2
  | .p3 => t.p3

/-- The table with one port's entry replaced. -/
def set (t : PerPort α) (p : Port) (x : α) : PerPort α :=
  match p with
  | .p0 => { t with p0 := x }
  | .p1 => { t with p1 := x }
  | .p2 => { t with p2 := x }
  | .p3 => { t with p3 := x }

/-- The same entry for every port. -/
def const (x : α) : PerPort α := ⟨x, x, x, x⟩

/-- Every entry replaced by its image. -/
def map (f : α → β) (t : PerPort α) : PerPort β := ⟨f t.p0, f t.p1, f t.p2, f t.p3⟩

/-- The table whose entry at each port is what `f` gives that port. -/
def ofFn (f : Port → α) : PerPort α := ⟨f .p0, f .p1, f .p2, f .p3⟩

/-- The sum of a table of counts over the four ports. -/
def sum (t : PerPort Nat) : Nat := t.p0 + t.p1 + t.p2 + t.p3

end PerPort

end Sys2Proof
end

