-- ==== Sys2Proof/Syntax.lean ====
section
/-! DEFINITION. The steps of the part: one constructor for each row of spec/opcode_table.json. The rows of
host commands are written with the port that carries the transaction and the argument bytes of R169's frame,
as the host shifts them in; the other rows are the events of 95_what_each_step_holds.md. -/

namespace Sys2Proof

/-- The twenty-five commands of the frame table (R169). -/
inductive Command where
  | status | attach | detach | nextEvent
  | offer | answer | close | leave | flush | conduitInfo
  | post | take | takeAny | peek | readHeld | release
  | attend | acceptAttn | withdrawAttn
  | propose | vote | cancelProposal | readPartition
  | poolInfo | segmentInfo
  deriving DecidableEq, Repr

/-- One port's part of the quota block of PROPOSE, as shifted in (R176). -/
structure QuotaArgument where
  blocks : Half
  descriptors : Half
  conduits : Byte
  deriving DecidableEq, Repr

/-- The steps of the part. A host command stands for the completion of its frame on the port named first:
its acceptance instant, where the port is in the command phase of a transaction (R153). -/
inductive Instr where
  /-- STATUS (R161). -/
  | status (port : Port)
  /-- ATTACH (R136). -/
  | attach (port : Port)
  /-- DETACH (R139). -/
  | detach (port : Port)
  /-- NEXT_EVENT (R90). -/
  | nextEvent (port : Port)
  /-- OFFER (R31): member set, class, requested window, requested maximum size, hold limit. -/
  | offer (port : Port) (memberSet cls window : Byte) (maxSize holdLimit : Half)
  /-- ANSWER (R33): conduit, generation, choice, window limit, size limit. -/
  | answer (port : Port) (conduit generation choice windowLimit : Byte) (sizeLimit : Half)
  /-- CLOSE (R39). -/
  | close (port : Port) (conduit : Byte)
  /-- LEAVE (R42). -/
  | leave (port : Port) (conduit : Byte)
  /-- FLUSH (R81). -/
  | flush (port : Port) (conduit : Byte)
  /-- CONDUIT_INFO (R49). -/
  | conduitInfo (port : Port) (conduit : Byte)
  /-- POST (R51): conduit, declared length. -/
  | post (port : Port) (conduit : Byte) (length : Half)
  /-- TAKE (R68). -/
  | take (port : Port) (conduit : Byte)
  /-- TAKE_ANY (R70). -/
  | takeAny (port : Port)
  /-- PEEK (R73). -/
  | peek (port : Port) (conduit : Byte)
  /-- READ_HELD (R74): conduit, sequence. -/
  | readHeld (port : Port) (conduit : Byte) (sequence : Half)
  /-- RELEASE (R78): conduit, sequence. -/
  | release (port : Port) (conduit : Byte) (sequence : Half)
  /-- ATTEND (R104): target, vector, argument. -/
  | attend (port : Port) (target vector : Byte) (argument : Half)
  /-- ACCEPT_ATTN (R105). -/
  | acceptAttn (port : Port)
  /-- WITHDRAW_ATTN (R107): target. -/
  | withdrawAttn (port : Port) (target : Byte)
  /-- PROPOSE (R123): the quota block. -/
  | propose (port : Port) (quotas : PerPort QuotaArgument)
  /-- VOTE (R125): proposal id, choice. -/
  | vote (port : Port) (id choice : Byte)
  /-- CANCEL_PROPOSAL (R128): proposal id. -/
  | cancelProposal (port : Port) (id : Byte)
  /-- READ_PARTITION (R131). -/
  | readPartition (port : Port)
  /-- POOL_INFO (R21). -/
  | poolInfo (port : Port)
  /-- SEGMENT_INFO (R22): handle. -/
  | segmentInfo (port : Port) (handle : Byte)
  /-- BAD_COMMAND (R151): byte 0 carries a code that names no command. -/
  | badCommand (port : Port) (code : Byte)
  /-- TRUNCATED (R152): select released after byte 0 of a known command and these argument bytes, fewer
  than the command carries. -/
  | truncated (port : Port) (code : Byte) (arguments : List Byte)
  /-- FILL_COMPLETION (R162): these payload bytes are shifted in and select is released. -/
  | fillCompletion (port : Port) (bytes : List Byte)
  /-- TRANSFER_END (R163): select is released. -/
  | transferEnd (port : Port)
  /-- PORT_RESET_ASSERTED (R140). -/
  | portResetAsserted (port : Port)
  /-- PORT_RESET_RELEASED (R142). -/
  | portResetReleased (port : Port)
  /-- GLOBAL_RESET_ASSERTED (R183). -/
  | globalResetAsserted
  /-- GLOBAL_RESET_RELEASED (R184). -/
  | globalResetReleased
  /-- INTERVAL_ADVANCE (R179). -/
  | intervalAdvance
  /-- END_OF_START_UP (R184). -/
  | endOfStartUp
  /-- OFFER_LAPSE (R37): the expiry of a slot's offer deadline. -/
  | offerLapse (conduit : ConduitNo)
  /-- PROPOSAL_LAPSE (R124): the expiry of the proposal deadline. -/
  | proposalLapse
  /-- HOLD_LAPSE (R76): the expiry of the deadline of the hold that carries this sequence at this member
  endpoint. -/
  | holdLapse (conduit : ConduitNo) (member : Port) (sequence : Half)
  /-- SELECT_ASSERTED (R148). -/
  | selectAsserted (port : Port)
  deriving DecidableEq, Repr

end Sys2Proof
end

