-- ==== Sys2Proof/Decode.lean ====
section
/-! DEFINITION. The command codes and frames of R169 and R150: which command a code names, how many argument
bytes it carries, where its reply begins; the frame a host shifts in for a command, and the step that the bytes
shifted in on a port make. spec/opcode_table.json gives no row any bits, so no word spells a command. -/

namespace Sys2Proof

/-- A two-byte field, most significant byte first (R167). -/
def bigEndian (x : Half) : List Byte := [x.extractLsb' 8 8, x.extractLsb' 0 8]

/-- The value of a two-byte field from its more and its less significant byte (R167). -/
def halfOf (high low : Byte) : Half := high ++ low

namespace Command

/-- Every command, in the order of R169's table. -/
def all : List Command :=
  [.status, .attach, .detach, .nextEvent, .offer, .answer, .close, .leave, .flush, .conduitInfo,
   .post, .take, .takeAny, .peek, .readHeld, .release, .attend, .acceptAttn, .withdrawAttn,
   .propose, .vote, .cancelProposal, .readPartition, .poolInfo, .segmentInfo]

/-- The code of a command (R169). -/
def code : Command → Byte
  | status => 0x00
  | attach => 0x01
  | detach => 0x02
  | nextEvent => 0x03
  | offer => 0x08
  | answer => 0x09
  | close => 0x0A
  | leave => 0x0B
  | flush => 0x0C
  | conduitInfo => 0x0D
  | post => 0x10
  | take => 0x11
  | takeAny => 0x12
  | peek => 0x13
  | readHeld => 0x14
  | release => 0x15
  | attend => 0x18
  | acceptAttn => 0x19
  | withdrawAttn => 0x1A
  | propose => 0x20
  | vote => 0x21
  | cancelProposal => 0x22
  | readPartition => 0x23
  | poolInfo => 0x28
  | segmentInfo => 0x29

/-- The number of argument bytes a command carries (R150). -/
def argumentCount : Command → Nat
  | status | attach | detach | nextEvent | takeAny | acceptAttn | readPartition | poolInfo => 0
  | close | leave | flush | conduitInfo | take | peek | withdrawAttn | cancelProposal | segmentInfo => 1
  | vote => 2
  | post | readHeld | release => 3
  | attend => 4
  | answer => 6
  | offer => 7
  | propose => 20

/-- The reply position: the larger of 4 and one more than the argument count (R156). -/
def replyPosition (c : Command) : Nat := max 4 (c.argumentCount + 1)

/-- The command a code names, if it names one (R150, R151). -/
def ofCode? (b : Byte) : Option Command := all.find? (fun c => c.code == b)

end Command

/-- The three fields of one port in the quota block of PROPOSE (R176). -/
def QuotaArgument.bytes (q : QuotaArgument) : List Byte :=
  bigEndian q.blocks ++ bigEndian q.descriptors ++ [q.conduits]

/-- The quota block as shifted in, ports 0 to 3 in turn (R176). -/
def quotaArgumentBytes (q : PerPort QuotaArgument) : List Byte :=
  q.p0.bytes ++ q.p1.bytes ++ q.p2.bytes ++ q.p3.bytes

/-- The command a step is the acceptance of, with its port and its argument bytes in the order of R169. -/
def Instr.frame : Instr → Option (Command × Port × List Byte)
  | .status p => some (.status, p, [])
  | .attach p => some (.attach, p, [])
  | .detach p => some (.detach, p, [])
  | .nextEvent p => some (.nextEvent, p, [])
  | .offer p ms cl w sz hl => some (.offer, p, [ms, cl, w] ++ bigEndian sz ++ bigEndian hl)
  | .answer p c g ch wl sl => some (.answer, p, [c, g, ch, wl] ++ bigEndian sl)
  | .close p c => some (.close, p, [c])
  | .leave p c => some (.leave, p, [c])
  | .flush p c => some (.flush, p, [c])
  | .conduitInfo p c => some (.conduitInfo, p, [c])
  | .post p c len => some (.post, p, c :: bigEndian len)
  | .take p c => some (.take, p, [c])
  | .takeAny p => some (.takeAny, p, [])
  | .peek p c => some (.peek, p, [c])
  | .readHeld p c q => some (.readHeld, p, c :: bigEndian q)
  | .release p c q => some (.release, p, c :: bigEndian q)
  | .attend p t v a => some (.attend, p, [t, v] ++ bigEndian a)
  | .acceptAttn p => some (.acceptAttn, p, [])
  | .withdrawAttn p t => some (.withdrawAttn, p, [t])
  | .propose p q => some (.propose, p, quotaArgumentBytes q)
  | .vote p id ch => some (.vote, p, [id, ch])
  | .cancelProposal p id => some (.cancelProposal, p, [id])
  | .readPartition p => some (.readPartition, p, [])
  | .poolInfo p => some (.poolInfo, p, [])
  | .segmentInfo p h => some (.segmentInfo, p, [h])
  | .badCommand _ _ | .truncated _ _ _ | .fillCompletion _ _ | .transferEnd _
  | .portResetAsserted _ | .portResetReleased _ | .globalResetAsserted | .globalResetReleased
  | .intervalAdvance | .endOfStartUp | .offerLapse _ | .proposalLapse | .holdLapse _ _ _
  | .selectAsserted _ => none

/-- The bytes a host shifts in, from byte 0, for a step: the command code and its argument bytes; for
BAD_COMMAND and TRUNCATED the bytes received; none for the other events (R149, R151, R152). -/
def Instr.inputBytes (i : Instr) : List Byte :=
  match i with
  | .badCommand _ code => [code]
  | .truncated _ code args => code :: args
  | i => match i.frame with
    | some (c, _, args) => c.code :: args
    | none => []

/-- A command built from its argument bytes, which may be followed by bytes the controller does not take as
arguments; none where the argument bytes are too few (R150, R169). -/
def Command.build (p : Port) : Command → List Byte → Option Instr
  | .status, _ => some (.status p)
  | .attach, _ => some (.attach p)
  | .detach, _ => some (.detach p)
  | .nextEvent, _ => some (.nextEvent p)
  | .offer, ms :: cl :: w :: s1 :: s0 :: h1 :: h0 :: _ =>
    some (.offer p ms cl w (halfOf s1 s0) (halfOf h1 h0))
  | .answer, c :: g :: ch :: wl :: s1 :: s0 :: _ => some (.answer p c g ch wl (halfOf s1 s0))
  | .close, c :: _ => some (.close p c)
  | .leave, c :: _ => some (.leave p c)
  | .flush, c :: _ => some (.flush p c)
  | .conduitInfo, c :: _ => some (.conduitInfo p c)
  | .post, c :: l1 :: l0 :: _ => some (.post p c (halfOf l1 l0))
  | .take, c :: _ => some (.take p c)
  | .takeAny, _ => some (.takeAny p)
  | .peek, c :: _ => some (.peek p c)
  | .readHeld, c :: q1 :: q0 :: _ => some (.readHeld p c (halfOf q1 q0))
  | .release, c :: q1 :: q0 :: _ => some (.release p c (halfOf q1 q0))
  | .attend, t :: v :: a1 :: a0 :: _ => some (.attend p t v (halfOf a1 a0))
  | .acceptAttn, _ => some (.acceptAttn p)
  | .withdrawAttn, t :: _ => some (.withdrawAttn p t)
  | .propose, b1 :: b0 :: d1 :: d0 :: c0 :: b3 :: b2 :: d3 :: d2 :: c1 :: b5 :: b4 :: d5 :: d4 :: c2 ::
      b7 :: b6 :: d7 :: d6 :: c3 :: _ =>
    some (.propose p
      ⟨⟨halfOf b1 b0, halfOf d1 d0, c0⟩, ⟨halfOf b3 b2, halfOf d3 d2, c1⟩,
       ⟨halfOf b5 b4, halfOf d5 d4, c2⟩, ⟨halfOf b7 b6, halfOf d7 d6, c3⟩⟩)
  | .vote, id :: ch :: _ => some (.vote p id ch)
  | .cancelProposal, id :: _ => some (.cancelProposal p id)
  | .readPartition, _ => some (.readPartition p)
  | .poolInfo, _ => some (.poolInfo p)
  | .segmentInfo, h :: _ => some (.segmentInfo p h)
  | _, _ => none

/-- The step that the input bytes of a transaction make on a port: none before byte 0 is complete (R149),
BAD_COMMAND for a code that names no command (R151), TRUNCATED where the bytes end before the last argument
byte (R152), and the command otherwise (R150). -/
def Instr.ofInput (p : Port) : List Byte → Option Instr
  | [] => none
  | b :: rest =>
    match Command.ofCode? b with
    | none => some (.badCommand p b)
    | some c => if rest.length < c.argumentCount then some (.truncated p b rest) else c.build p rest

/-- The command that a word spells by the bits of spec/opcode_table.json. No row of that table has bits
(98_reader.md: 0 rows with fixed bits, 0 with fields), so no word spells one. -/
def decodeTableWord (_nbits _w : Nat) : Option Instr := none

end Sys2Proof
end

