-- ==== Sys2Proof/Config.lean ====
section
/-! DEFINITION. The quantities the data sheet fixes (00_scope.md, Principal Numbers, and the rules named
below), and the one free choice the rules leave open. No implementation-defined value occurs in the spec. -/

namespace Sys2Proof.Config

/-- Blocks of the payload store (R1). -/
def totalBlocks : Nat := 512

/-- Bytes of one payload block (R4). -/
def blockBytes : Nat := 128

/-- Segment descriptors (R5). -/
def totalDescriptors : Nat := 256

/-- Conduit slots (R24). -/
def totalConduits : Nat := 24

/-- The longest segment, and so the largest requested or allowed maximum size (R3, R30, R33). -/
def maxLength : Nat := 1024

/-- The largest window that can be requested or allowed (R30, R33). -/
def maxWindow : Nat := 16

/-- The largest hold limit, in milliseconds (R30). -/
def maxHoldLimit : Nat := 1000

/-- Holds, and lapsed sequence numbers, of one member endpoint (R75). -/
def holdsPerEndpoint : Nat := 4

/-- Lapsed sequence numbers one member endpoint remembers (R75, R77). -/
def lapsedPerEndpoint : Nat := 4

/-- Ordinary records an event queue takes before the next becomes OVERFLOW (R84, R87). -/
def eventCapacity : Nat := 31

/-- The largest lost count an OVERFLOW record reaches (R88). -/
def maxLostCount : Nat := 65535

/-- The largest attention vector (R101). -/
def maxVector : Nat := 63

/-- The limit of an offer's deadline, in milliseconds (R32, R180). -/
def offerLimit : Nat := 100

/-- The limit of a proposal's deadline, in milliseconds (R124, R180). -/
def proposalLimit : Nat := 250

/-- Reference clock periods in one interval (R179). -/
def periodsPerInterval : Nat := 8000

/-- Block quota of each port at power-on (R114). -/
def powerOnBlocks : Nat := 128

/-- Descriptor quota of each port at power-on (R114). -/
def powerOnDescriptors : Nat := 64

/-- Conduit quota of each port at power-on (R114). -/
def powerOnConduits : Nat := 6

/-- FREE VALUE (notes/assumptions/6.md). Several deadlines may expire at one advance and "either may be
taken first" (R181). Where the model itself has to take them, the one taken first is picked by this
opaque number, applied to the count of choices made so far: nothing can be proved of it. -/
opaque expiryChoice : Nat → Nat

end Sys2Proof.Config
end

