-- ==== Sys2Proof/Machine/State.lean ====
section
/-! DEFINITION. The state of the part, block by block (00_scope.md, Block Diagram), as plain data, and its
power-on values. What the rules make absent is absent here: an Option, or a constructor that does not carry it. -/

namespace Sys2Proof.Machine

/-! ### Port Controller -/

/-- The state a port controller holds its port in (R133). A port that shows STARTING is HELD. -/
inductive PortState where
  | held | detached | attached
  deriving DecidableEq, Repr

/-- The port state a status header shows (R133, R158). -/
inductive ShownState where
  | starting | detached | attached
  deriving DecidableEq, Repr

/-- The outcome codes (R170). -/
inductive OutcomeCode where
  | done | excess | short | discarded
  | truncated | badCommand | badArgument | notReady | notAttached | alreadyAttached
  | wrongState | notProducer | notMember | peerAbsent | stale
  | overQuota | windowFull | tooLong | seqInUse | empty | holdsFull | unknownSeq | lapsed
  | busy | noProposal | belowUsage | alreadyTaken | noPending
  deriving DecidableEq, Repr

/-- The outcome record of a port (R159). `command` is the code received in byte 0, known or not. -/
structure OutcomeRecord where
  outcome : OutcomeCode
  command : Byte
  conduit : Option ConduitNo
  handle : Option Handle
  deriving DecidableEq, Repr

/-- The record at power-on, at an entry into HELD and at a departure: DONE, STATUS, both fields absent (R159). -/
def OutcomeRecord.initial : OutcomeRecord :=
  { outcome := .done, command := 0x00, conduit := none, handle := none }

/-- The six items of the status header, taken at the assertion of select (R158). -/
structure StatusHeader where
  portState : ShownState
  overflow : Bool
  attentionCount : Nat
  eventCount : Nat
  lastOutcome : OutcomeCode
  lastCommand : Byte
  deriving DecidableEq, Repr

/-- The phase of a transaction (R148). The arguments phase holds the code of byte 0 and the argument bytes complete
since, which wait there for the acceptance instant (R150). A row of the table stands for a command with its arguments
complete, so it is `State.shiftIn`, one byte at a time, that enters this phase (notes/assumptions/3.md). -/
inductive Phase where
  | command
  | arguments (code : Byte) (received : List Byte)
  | reply
  | payload
  deriving DecidableEq, Repr

/-- The transaction in progress on a port: its header, phase and count of complete bytes (R148, R158), and the
reply the part shifts out from the reply position on, ahead of a read's payload (R156, R157). -/
structure Transaction where
  header : StatusHeader
  phase : Phase
  byteCount : Nat
  replyPosition : Nat
  reply : List Byte
  deriving DecidableEq, Repr

/-- What one port controller holds (R133, R147, R148, R159, R72), and the level of the port's reset line. -/
structure PortController where
  state : PortState
  resetAsserted : Bool
  outcome : OutcomeRecord
  rotation : ConduitNo
  transaction : Option Transaction
  deriving DecidableEq, Repr

/-! ### Segment Pool -/

/-- The three reference tallies of a LIVE descriptor (R3, R12). -/
structure Refs where
  queue : Nat
  hold : Nat
  transfer : Nat
  deriving DecidableEq, Repr

/-- FILLING, or LIVE with the sequence and the tallies that only a LIVE descriptor has (R3). -/
inductive SegmentStage where
  | filling
  | live (sequence : Half) (refs : Refs)
  deriving DecidableEq, Repr

/-- What a descriptor that is not FREE holds (R3), with the payload bytes stored so far (R2). The block count
is computed from the length (R4). A conduit of none is a detached segment. -/
structure Segment where
  producer : Port
  conduit : Option ConduitNo
  length : Nat
  payload : List Byte
  stage : SegmentStage
  deriving DecidableEq, Repr

/-- The Segment Pool (R1, R3, R5, R6). A descriptor of none is FREE. Blocks have no visible identity, so the
free block set is its size. -/
structure Pool where
  freeBlocks : Nat
  descriptors : Vector (Option Segment) 256
  freeList : List Handle
  chargedBlocks : PerPort Nat
  chargedDescriptors : PerPort Nat
  deriving DecidableEq, Repr

/-! ### Conduit Table -/

/-- The delivery priority of a conduit. -/
inductive ConduitClass where
  | urgent | routine
  deriving DecidableEq, Repr

/-- A member's answer, with the limits it carries once accepted (R25). -/
inductive Answered where
  | pending
  | accepted (windowLimit sizeLimit : Nat)
  deriving DecidableEq, Repr

/-- One hold of a hold set (R75). -/
structure Hold where
  sequence : Half
  handle : Handle
  deadline : Option Tick
  deriving DecidableEq, Repr

/-- A member endpoint (R25): the delivery queue has its oldest entry at the head, the hold set is in take
order, the lapsed list is oldest first. -/
structure Endpoint where
  port : Port
  answer : Answered
  queue : List Handle
  holds : List Hold
  lapsed : List Half
  deriving DecidableEq, Repr

/-- What only an OPEN or DRAINING conduit has (R24). -/
structure Flow where
  window : Nat
  maxSize : Nat
  nextSequence : Half
  outstanding : Nat
  windowLatch : Bool
  deriving DecidableEq, Repr

/-- The state of a conduit that is not FREE (R24): the offer deadline is there while it is OFFERED, the flow
fields while it is OPEN or DRAINING. -/
inductive Stage where
  | offered (deadline : Tick)
  | opened (flow : Flow)
  | draining (flow : Flow)
  deriving DecidableEq, Repr

/-- The current use of a slot (R24): everything that is absent while the slot is FREE. -/
structure Channel where
  producer : Port
  producerPresent : Bool
  cls : ConduitClass
  requestedWindow : Nat
  requestedSize : Nat
  holdLimit : Nat
  members : List Endpoint
  stage : Stage
  deriving DecidableEq, Repr

/-- A conduit slot (R24). A channel of none is the state FREE. -/
structure Conduit where
  generation : Byte
  channel : Option Channel
  deriving DecidableEq, Repr

/-! ### Event Unit -/

/-- The result of an offer, with the port concerned or the effective window where it has one (R94). -/
inductive OfferResult where
  | opened (window : Nat)
  | declined (member : Port)
  | lapsed
  | withdrawn (producer : Port)
  | memberGone (member : Port)
  deriving DecidableEq, Repr

/-- Why a member was removed (R93). -/
inductive GoneReason where
  | left | departed
  deriving DecidableEq, Repr

/-- Why a conduit ended (R94). -/
inductive EndReason where
  | drained | noConsumers
  deriving DecidableEq, Repr

/-- How a proposal ended, with the port concerned where there is one (R121). -/
inductive ProposalResult where
  | adopted
  | rejected (port : Port)
  | lapsed
  | abandoned (port : Port)
  | withdrawn (port : Port)
  | failedUsage (port : Port)
  deriving DecidableEq, Repr

/-- The cause of a departure (R95). -/
inductive DepartureCause where
  | detach | reset
  deriving DecidableEq, Repr

/-- The kinds of event record with their fields (R93, R94, R95). NONE is not a record: it is the reply of a
NEXT_EVENT on an empty queue (R91). -/
inductive Event where
  | arrived (conduit : ConduitNo)
  | windowOpen (conduit : ConduitNo)
  | holdLapsed (conduit : ConduitNo) (sequence : Half)
  | offerReceived (conduit : ConduitNo) (generation : Byte) (producer : Port) (window size : Nat)
  | offerResolved (conduit : ConduitNo) (generation : Byte) (result : OfferResult)
  | producerClosed (conduit : ConduitNo)
  | producerGone (conduit : ConduitNo)
  | consumerGone (conduit : ConduitNo) (member : Port) (reason : GoneReason)
  | conduitEnded (conduit : ConduitNo) (generation : Byte) (reason : EndReason)
  | flushed (conduit : ConduitNo) (count : Nat)
  | attnTaken (target : Port) (vector : Nat)
  | attnRefused (target : Port) (vector : Nat)
  | partitionProposed (id : Byte) (proposer : Port)
  | partitionResolved (id : Byte) (result : ProposalResult) (generation : Half)
  | peerAttached (port : Port)
  | peerDetached (port : Port) (cause : DepartureCause)
  | overflow (lost : Nat)
  deriving DecidableEq, Repr

/-- A record with the event number it received when it was appended (R85). -/
structure EventRecord where
  number : Byte
  event : Event
  deriving DecidableEq, Repr

/-- A port's event queue, oldest record at the head, and its event number counter (R83, R85). -/
structure EventQueue where
  records : List EventRecord
  counter : Byte
  deriving DecidableEq, Repr

/-! ### Attention Unit -/

/-- An attention queue entry (R101). -/
structure AttentionEntry where
  source : Port
  vector : Nat
  argument : Half
  deriving DecidableEq, Repr

/-- The pair state of an ordered pair of ports (R102). -/
inductive PairState where
  | none | pending | taken
  deriving DecidableEq, Repr

/-- The Attention Unit: a queue per target, oldest entry at the head (R101), and the pair states by source and
then target (R102). Only the twelve pairs of distinct ports are pairs; the other four entries stay NONE. -/
structure Attention where
  queues : PerPort (List AttentionEntry)
  pairs : PerPort (PerPort PairState)
  deriving DecidableEq, Repr

/-! ### Partition Unit -/

/-- One port's quotas (R114). -/
structure Quota where
  blocks : Nat
  descriptors : Nat
  conduits : Nat
  deriving DecidableEq, Repr

/-- The vote of a port on the pending proposal (R118). -/
inductive Vote where
  | none | pending | accept
  deriving DecidableEq, Repr

/-- The pending proposal (R118). -/
structure Proposal where
  id : Byte
  proposer : Port
  quotas : PerPort Quota
  votes : PerPort Vote
  deadline : Tick
  deriving DecidableEq, Repr

/-- The Partition Unit: the active record and its generation (R114), the pending proposal (R118) and the
proposal id counter (R119). -/
structure Partition where
  quotas : PerPort Quota
  generation : Half
  proposal : Option Proposal
  idCounter : Byte
  deriving DecidableEq, Repr

/-! ### Time Base -/

/-- Global reset held, the start-up interval after its release, or operation (R183, R184). -/
inductive ResetPhase where
  | held | startUp | running
  deriving DecidableEq, Repr

/-- The Time Base: the interval counter and the divider's count of reference clock periods (R179), and where the
part stands between reset and operation (R183, R184). The set of placed deadlines (R180) is the deadlines that
the offers, the proposal and the holds carry. -/
structure TimeBase where
  counter : Tick
  divider : Nat
  reset : ResetPhase
  deriving DecidableEq, Repr

/-- The whole part. `choices` counts the free choices the model has made (notes/assumptions/6.md) and `pending`
holds the steps that wait, first in, first out; neither is the spec's. -/
structure State where
  ports : PerPort PortController
  pool : Pool
  conduits : Vector Conduit 24
  events : PerPort EventQueue
  attention : Attention
  partition : Partition
  time : TimeBase
  choices : Nat
  pending : List Instr
  deriving DecidableEq, Repr

/-- No occurrence of this part is a fault: every command in every state has an outcome the rules give, and
every event an effect. The type has no constructors. -/
inductive Fault where
  deriving DecidableEq, Repr

/-- Why a step has no meaning. -/
inductive Refusal where
  /-- Raised by an arm of exec whose row has no meaning yet (safe). No arm raises it. -/
  | notModelled (mnemonic : String)
  /-- Raised by BAD_COMMAND where its code names a command of the frame table: no such event exists (R151).
  Safe: the model stops on a term that stands for no occurrence. -/
  | codeNamesACommand
  /-- Raised by TRUNCATED where its code names no command, or its arguments are complete: no such event exists
  (R152). Safe: the model stops on a term that stands for no occurrence. -/
  | argumentsNotIncomplete
  deriving DecidableEq, Repr

/-! ### Power-on values -/

/-- Every handle in ascending order: the free-descriptor list at power-on (R5). -/
def allHandles : List Handle := (List.range 256).map (Fin.ofNat 256)

/-- Every conduit number in ascending order. -/
def allConduits : List ConduitNo := (List.range 24).map (Fin.ofNat 24)

/-- The Segment Pool at power-on (R23). -/
def Pool.initial : Pool :=
  { freeBlocks := Config.totalBlocks
    descriptors := Vector.replicate 256 none
    freeList := allHandles
    chargedBlocks := PerPort.const 0
    chargedDescriptors := PerPort.const 0 }

/-- The Conduit Table at power-on (R50). -/
def initialConduits : Vector Conduit 24 := Vector.replicate 24 { generation := 0, channel := none }

/-- A port's event queue and counter at power-on (R100). -/
def EventQueue.initial : EventQueue := { records := [], counter := 0 }

/-- The Attention Unit at power-on (R113). -/
def Attention.initial : Attention :=
  { queues := PerPort.const [], pairs := PerPort.const (PerPort.const .none) }

/-- The Partition Unit at power-on (R132). -/
def Partition.initial : Partition :=
  { quotas := PerPort.const
      { blocks := Config.powerOnBlocks
        descriptors := Config.powerOnDescriptors
        conduits := Config.powerOnConduits }
    generation := 0
    proposal := none
    idCounter := 0 }

/-- A port controller at power-on with its reset line at the given level (R146). -/
def PortController.initial (resetAsserted : Bool) : PortController :=
  { state := .held
    resetAsserted
    outcome := OutcomeRecord.initial
    rotation := 23
    transaction := none }

/-- The Time Base while global reset is held (R179, R183). -/
def TimeBase.initial : TimeBase := { counter := 0, divider := 0, reset := .held }

/-- The part at power-on, global reset still held (R183). The four port reset lines are inputs: they stand
asserted, where their pull-downs put them (notes/assumptions/1.md). -/
def State.reset : State :=
  { ports := PerPort.const (PortController.initial true)
    pool := Pool.initial
    conduits := initialConduits
    events := PerPort.const EventQueue.initial
    attention := Attention.initial
    partition := Partition.initial
    time := TimeBase.initial
    choices := 0
    pending := [] }

end Sys2Proof.Machine
end

