-- ==== Sys2Proof/Machine/Ops.lean ====
section
/-! DEFINITION. The operations the commands share: reading and replacing one port, descriptor or slot; the
event append (R84 to R88); the claims, freeings and freeing notices of the Segment Pool (R12 to R18); deadlines
(R180); and what the Conduit Table does at a drain check, a member removal and a teardown (R41 to R48). -/

namespace Sys2Proof.Machine

/-! ### Reading and replacing parts of the state -/

/-- The controller of a port. -/
def State.port (s : State) (p : Port) : PortController := s.ports.get p

/-- The state with one port's controller replaced. -/
def State.setPort (s : State) (p : Port) (c : PortController) : State := { s with ports := s.ports.set p c }

/-- The port takes part in the exchange (R133). -/
abbrev State.Attached (s : State) (p : Port) : Prop := (s.port p).state = .attached

/-- A descriptor: none while it is FREE (R3). -/
def State.segment (s : State) (h : Handle) : Option Segment := s.pool.descriptors[h]

/-- The state with one descriptor replaced. -/
def State.setSegment (s : State) (h : Handle) (g : Option Segment) : State :=
  { s with pool := { s.pool with descriptors := s.pool.descriptors.set h g } }

/-- A conduit slot (R24). -/
def State.conduit (s : State) (n : ConduitNo) : Conduit := s.conduits[n]

/-- The current use of a slot: none while it is FREE (R24). -/
def State.channel (s : State) (n : ConduitNo) : Option Channel := (s.conduit n).channel

/-- The state with the current use of a slot replaced, its generation kept (R26). -/
def State.setChannel (s : State) (n : ConduitNo) (ch : Option Channel) : State :=
  { s with conduits := s.conduits.set n { s.conduit n with channel := ch } }

/-- The state with the current use of a slot changed; a FREE slot stays as it is. -/
def State.updateChannel (s : State) (n : ConduitNo) (f : Channel → Channel) : State :=
  match s.channel n with
  | none => s
  | some ch => s.setChannel n (some (f ch))

/-- The flow fields, which only an OPEN or DRAINING conduit has (R24). -/
def Stage.flow? : Stage → Option Flow
  | .offered _ => none
  | .opened f => some f
  | .draining f => some f

/-- The stage with its flow fields changed. -/
def Stage.mapFlow (g : Flow → Flow) : Stage → Stage
  | .offered d => .offered d
  | .opened f => .opened (g f)
  | .draining f => .draining (g f)

/-- The channel with its flow fields changed. -/
def Channel.mapFlow (g : Flow → Flow) (ch : Channel) : Channel := { ch with stage := ch.stage.mapFlow g }

/-- The endpoint a port has in a channel, if it is a member (R28). -/
def Channel.endpoint? (ch : Channel) (p : Port) : Option Endpoint := ch.members.find? (fun e => e.port == p)

/-- The channel with one member's endpoint changed. -/
def Channel.updateEndpoint (ch : Channel) (p : Port) (f : Endpoint → Endpoint) : Channel :=
  { ch with members := ch.members.map (fun e => if e.port = p then f e else e) }

/-- The ports of a channel's members, in ascending port order. -/
def Channel.memberPorts (ch : Channel) : List Port := ch.members.map (fun e => e.port)

/-- The state with one member's endpoint changed. -/
def State.updateEndpoint (s : State) (n : ConduitNo) (p : Port) (f : Endpoint → Endpoint) : State :=
  s.updateChannel n (fun ch => ch.updateEndpoint p f)

/-- Every entry of a table replaced by its image. -/
def mapEntries {α : Type} {k : Nat} (f : α → α) (v : Vector α k) : Vector α k :=
  ⟨(v.toList.map f).toArray, by simp⟩

/-- The port's charged conduits: the slots outside FREE whose producer field names it (R29). -/
def State.chargedConduits (s : State) (p : Port) : Nat :=
  s.conduits.toList.countP (fun c => c.channel.any (fun ch => ch.producer == p))

/-! ### Event append -/

/-- The record is OVERFLOW. -/
def Event.isOverflow : Event → Bool
  | .overflow _ => true
  | _ => false

/-- The queue holds an OVERFLOW record: the overflow-present flag (R99). -/
def EventQueue.overflowPresent (q : EventQueue) : Bool := q.records.any (fun r => r.event.isOverflow)

/-- One more record counted into an OVERFLOW record, up to 65535; any other record stays as it is (R88). -/
def EventRecord.countLoss (r : EventRecord) : EventRecord :=
  match r.event with
  | .overflow lost => { r with event := .overflow (min (lost + 1) Config.maxLostCount) }
  | _ => r

/-- An event queue after a record is addressed to it: appended (R84), made into OVERFLOW where it would be the
32nd (R87), or counted into the OVERFLOW record that is there (R88). -/
def EventQueue.push (q : EventQueue) (e : Event) : EventQueue :=
  if q.overflowPresent then
    { q with records := q.records.map EventRecord.countLoss }
  else
    { records := q.records ++
        [{ number := q.counter
           event := if q.records.length < Config.eventCapacity then e else .overflow 1 }]
      counter := q.counter + 1 }

/-- A record addressed to a port: recorded only while the port is ATTACHED (R84, R96). -/
def State.appendEvent (s : State) (p : Port) (e : Event) : State :=
  if s.Attached p then { s with events := s.events.set p ((s.events.get p).push e) } else s

/-- The same record addressed to several ports in turn. -/
def State.appendEvents (s : State) (ps : List Port) (e : Event) : State :=
  ps.foldl (fun s p => s.appendEvent p e) s

/-! ### Deadlines -/

/-- The target of a deadline of `limit` milliseconds placed now (R180). -/
def State.deadlineAfter (s : State) (limit : Nat) : Tick := s.time.counter + BitVec.ofNat 32 (limit + 1)

/-- The advances of the interval counter still to come before a deadline expires (R180). -/
def State.timeRemaining (s : State) (deadline : Tick) : Nat := (deadline - s.time.counter).toNat

/-! ### Segment Pool -/

/-- The blocks a length occupies: divided by 128, rounded up (R4). -/
def blockCount (length : Nat) : Nat := (length + (Config.blockBytes - 1)) / Config.blockBytes

/-- The reference count of a descriptor (R12). -/
def Refs.total (r : Refs) : Nat := r.queue + r.hold + r.transfer

/-- The claims that change the tallies of a LIVE descriptor (R13). A member removal names the member's queue
entry or its hold entry; the completion claim makes the descriptor LIVE and is `State.deliver`. -/
inductive Claim where
  | take | peek | heldRead | transferEnd | release | holdLapse | flush | removeQueued | removeHeld
  deriving DecidableEq, Repr

/-- The change a claim makes, by the table of R13. -/
def Claim.change : Claim → Refs → Refs
  | .take, r => { queue := r.queue - 1, hold := r.hold + 1, transfer := r.transfer + 1 }
  | .peek, r => { r with transfer := r.transfer + 1 }
  | .heldRead, r => { r with transfer := r.transfer + 1 }
  | .transferEnd, r => { r with transfer := r.transfer - 1 }
  | .release, r => { r with hold := r.hold - 1 }
  | .holdLapse, r => { r with hold := r.hold - 1 }
  | .flush, r => { r with queue := r.queue - 1 }
  | .removeQueued, r => { r with queue := r.queue - 1 }
  | .removeHeld, r => { r with hold := r.hold - 1 }

/-- The freeing notice to a conduit: outstanding falls by one, and where the window latch is set and outstanding
is then below the window, the latch clears and the producer receives WINDOW_OPEN (R17, R62). -/
def State.freeingNotice (s : State) (n : ConduitNo) : State :=
  match s.channel n with
  | none => s
  | some ch =>
    match ch.stage.flow? with
    | none => s
    | some f =>
      if f.windowLatch = true ∧ f.outstanding - 1 < f.window then
        (s.updateChannel n (Channel.mapFlow (fun f =>
          { f with outstanding := f.outstanding - 1, windowLatch := false }))).appendEvent ch.producer
            (.windowOpen n)
      else
        s.updateChannel n (Channel.mapFlow (fun f => { f with outstanding := f.outstanding - 1 }))

/-- What the pool itself does in a freeing: blocks, charges and handle return, and the descriptor is FREE (R16). -/
def Pool.reclaim (pool : Pool) (h : Handle) (g : Segment) : Pool :=
  { freeBlocks := pool.freeBlocks + blockCount g.length
    descriptors := pool.descriptors.set h none
    freeList := pool.freeList ++ [h]
    chargedBlocks :=
      pool.chargedBlocks.set g.producer (pool.chargedBlocks.get g.producer - blockCount g.length)
    chargedDescriptors :=
      pool.chargedDescriptors.set g.producer (pool.chargedDescriptors.get g.producer - 1) }

/-- Freeing a descriptor, with its freeing notice where it names a conduit (R16, R17). -/
def State.freeDescriptor (s : State) (h : Handle) : State :=
  match s.segment h with
  | none => s
  | some g =>
    match g.conduit with
    | none => { s with pool := s.pool.reclaim h g }
    | some n => ({ s with pool := s.pool.reclaim h g } : State).freeingNotice n

/-- A claim taken whole: the change, and the freeing where it leaves a LIVE descriptor's count at 0 (R14). -/
def State.claim (s : State) (c : Claim) (h : Handle) : State :=
  match s.segment h with
  | none => s
  | some g =>
    match g.stage with
    | .filling => s
    | .live q refs =>
      if (c.change refs).total = 0 then
        (s.setSegment h (some { g with stage := .live q (c.change refs) })).freeDescriptor h
      else
        s.setSegment h (some { g with stage := .live q (c.change refs) })

/-- The same claim presented for several descriptors in turn. -/
def State.claims (s : State) (c : Claim) (hs : List Handle) : State := hs.foldl (fun s h => s.claim c h) s

/-- The sequence a LIVE descriptor carries (R3); 0 where there is none. -/
def State.sequenceOf (s : State) (h : Handle) : Half :=
  match s.segment h with
  | some g =>
    match g.stage with
    | .live q _ => q
    | .filling => 0
  | none => 0

/-- What the pool does at an allocation, with the handle at the head of the free-descriptor list (R7). -/
def Pool.allocate (pool : Pool) (h : Handle) (p : Port) (n : ConduitNo) (length : Nat) : Pool :=
  { freeBlocks := pool.freeBlocks - blockCount length
    descriptors := pool.descriptors.set h (some
      { producer := p, conduit := some n, length, payload := [], stage := .filling })
    freeList := pool.freeList.tail
    chargedBlocks := pool.chargedBlocks.set p (pool.chargedBlocks.get p + blockCount length)
    chargedDescriptors := pool.chargedDescriptors.set p (pool.chargedDescriptors.get p + 1) }

/-- A descriptor's conduit field made absent where it names the slot (R18). -/
def Segment.detachFrom (n : ConduitNo) (g : Segment) : Segment :=
  if g.conduit = some n then { g with conduit := none } else g

/-- Every FILLING and LIVE descriptor that names the slot detached (R18). -/
def Pool.detach (pool : Pool) (n : ConduitNo) : Pool :=
  { pool with descriptors := mapEntries (Option.map (Segment.detachFrom n)) pool.descriptors }

/-! ### Conduit Table -/

/-- Teardown: the descriptors are detached and the slot is FREE, its generation kept (R48). -/
def State.teardown (s : State) (n : ConduitNo) : State :=
  ({ s with pool := s.pool.detach n } : State).setChannel n none

/-- An offer that fails: OFFER_RESOLVED with its result to the ports given, then teardown (R36 to R38, R45, R46). -/
def State.failOffer (s : State) (n : ConduitNo) (result : OfferResult) (recipients : List Port) : State :=
  (s.appendEvents recipients (.offerResolved n (s.conduit n).generation result)).teardown n

/-- An OPEN or DRAINING conduit that ends: CONDUIT_ENDED to the present producer and to every member, then
teardown (R41, R44). -/
def State.endConduit (s : State) (n : ConduitNo) (reason : EndReason) : State :=
  match s.channel n with
  | none => s
  | some ch =>
    (s.appendEvents ((if ch.producerPresent then [ch.producer] else []) ++ ch.memberPorts)
      (.conduitEnded n (s.conduit n).generation reason)).teardown n

/-- Every member's delivery queue and hold set are empty (R41). -/
def Channel.drained (ch : Channel) : Bool :=
  ch.members.all (fun e => e.queue.isEmpty && e.holds.isEmpty)

/-- The drain check of a DRAINING conduit (R41). -/
def State.drainCheck (s : State) (n : ConduitNo) : State :=
  match s.channel n with
  | none => s
  | some ch =>
    match ch.stage with
    | .draining _ => if ch.drained then s.endConduit n .drained else s
    | _ => s

/-- Removing a member from an OPEN or DRAINING conduit (R43, R44). CONSUMER_GONE stands ahead of any WINDOW_OPEN
the claims cause, so it is appended before they are presented. R43 lists the claims of the delivery queue before those
of the hold set and gives no order inside either; here the queue's go from its head to its tail and the hold set's in
take order: DESIGN CHOICE (notes/assumptions/17.md). The order shows in the free-descriptor list, where each freed
handle joins the tail (R5, R16). -/
def State.removeMember (s : State) (n : ConduitNo) (p : Port) (reason : GoneReason) : State :=
  match s.channel n with
  | none => s
  | some ch =>
    match ch.endpoint? p with
    | none => s
    | some e =>
      let removed := s.setChannel n (some { ch with members := ch.members.filter (fun e => e.port != p) })
      let told := removed.appendEvents (if ch.producerPresent then [ch.producer] else [])
        (.consumerGone n p reason)
      let dropped := (told.claims .removeQueued e.queue).claims .removeHeld (e.holds.map (fun d => d.handle))
      if ch.members.all (fun e => e.port == p) then dropped.endConduit n .noConsumers else dropped.drainCheck n

end Sys2Proof.Machine
end

