-- ==== Sys2Proof/Machine/Flags.lean ====
section
/-! DEFINITION. What the part shows without a command: the port state a header shows (R133, R184), the counts and
the flag of the status header (R99, R112, R158), the notify output (R97), and the transfer or fill that a
transaction in progress holds (R159, R162, R163). -/

namespace Sys2Proof.Machine

/-- The state a port shows while its controller answers select, and none while it ignores select (R133, R134,
R184): a HELD port answers, as STARTING, only during the start-up interval with its reset line released. -/
def State.shownState (s : State) (p : Port) : Option ShownState :=
  match (s.port p).state with
  | .attached => some .attached
  | .detached => some .detached
  | .held => if s.time.reset = .startUp ∧ (s.port p).resetAsserted = false then some .starting else none

/-- The number of records in a port's event queue, OVERFLOW included (R99). -/
def State.eventCount (s : State) (p : Port) : Nat := (s.events.get p).records.length

/-- The number of entries in a port's attention queue (R112). -/
def State.attentionCount (s : State) (p : Port) : Nat := (s.attention.queues.get p).length

/-- The notify output of a port, true when it is asserted (driven low): the port is ATTACHED and one of its two
queues is not empty (R97). It has no state of its own (R98). -/
def State.notify (s : State) (p : Port) : Bool :=
  decide (s.Attached p) &&
    (!(s.events.get p).records.isEmpty || !(s.attention.queues.get p).isEmpty)

/-- The status header a port that shows `shown` takes at an assertion of select (R158). A port that is not
ATTACHED shows both counts 0 and the flag clear. -/
def State.statusHeader (s : State) (p : Port) (shown : ShownState) : StatusHeader :=
  { portState := shown
    overflow := (s.events.get p).overflowPresent
    attentionCount := s.attentionCount p
    eventCount := s.eventCount p
    lastOutcome := (s.port p).outcome.outcome
    lastCommand := (s.port p).outcome.command }

/-- The four commands that read a segment (R65). -/
def readCommands : List Command := [.take, .takeAny, .peek, .readHeld]

/-- The outcome record is that of a read with outcome DONE (R159). -/
def OutcomeRecord.isRead (r : OutcomeRecord) : Bool :=
  r.outcome == .done && (readCommands.map Command.code).contains r.command

/-- The descriptor whose transfer the transaction in progress on a port holds: the handle of the outcome record,
in the reply phase of an accepted read (R159, R163). -/
def State.transferHandle? (s : State) (p : Port) : Option Handle :=
  match (s.port p).transaction with
  | some t => if t.phase = .reply ∧ (s.port p).outcome.isRead = true then (s.port p).outcome.handle else none
  | none => none

/-- The descriptor whose fill the transaction in progress on a port holds: the handle of the outcome record, in
the payload phase (R159, R162). -/
def State.fillHandle? (s : State) (p : Port) : Option Handle :=
  match (s.port p).transaction with
  | some t => if t.phase = .payload then (s.port p).outcome.handle else none
  | none => none

/-- The payload bytes received in the payload phase: the input bytes from position 4 on (R53, R162). -/
def Transaction.payloadCount (t : Transaction) : Nat := t.byteCount - Command.post.replyPosition

end Sys2Proof.Machine
end

