-- ==== Sys2Proof/Machine/Operands.lean ====
section
/-! DEFINITION. What the argument bytes of a command name (R27, R30, R167, R169, R174, R176). A byte outside the
range or the list of its field names nothing; the command's own check then refuses it. -/

namespace Sys2Proof.Machine

/-- The conduit a byte names: none above 23 (R27). -/
def conduitOf? (b : Byte) : Option ConduitNo := if h : b.toNat < 24 then some ⟨b.toNat, h⟩ else none

/-- The port a byte names: none above 3 (R103, R107). -/
def portOf? (b : Byte) : Option Port := Port.all.find? (fun p => p.toNat == b.toNat)

/-- The handle a byte names: every value is one (R22). -/
def handleOf (b : Byte) : Handle := b.toFin

/-- The ports a member set names, in ascending order: bit n for port n (R169). -/
def membersOf (ms : Byte) : List Port := Port.all.filter (fun p => ms.getLsbD p.toNat)

/-- Check 1 of R30: at least one port, not the offering port, no position beyond port 3. -/
def memberSetValid (offering : Port) (ms : Byte) : Bool :=
  decide (ms.toNat < 16) && !(membersOf ms).isEmpty && !(membersOf ms).contains offering

/-- The class a byte names (R174). -/
def classOf? (b : Byte) : Option ConduitClass :=
  if b = 0x01 then some .urgent else if b = 0x02 then some .routine else none

/-- The choice of an ANSWER. -/
inductive AnswerChoice where
  | accept | decline
  deriving DecidableEq, Repr

/-- The choice byte of an ANSWER (R174). -/
def answerChoiceOf? (b : Byte) : Option AnswerChoice :=
  if b = 0x01 then some .accept else if b = 0x02 then some .decline else none

/-- The choice of a VOTE. -/
inductive VoteChoice where
  | accept | reject
  deriving DecidableEq, Repr

/-- The choice byte of a VOTE (R174). -/
def voteChoiceOf? (b : Byte) : Option VoteChoice :=
  if b = 0x01 then some .accept else if b = 0x02 then some .reject else none

/-- A window argument in range: 1 to 16 (R30, R33). -/
def windowValid (b : Byte) : Bool := decide (1 ≤ b.toNat ∧ b.toNat ≤ Config.maxWindow)

/-- A maximum size or size limit in range: 1 to 1024 (R30, R33). -/
def sizeValid (x : Half) : Bool := decide (1 ≤ x.toNat ∧ x.toNat ≤ Config.maxLength)

/-- A hold limit in range: 0 to 1000 (R30). -/
def holdLimitValid (x : Half) : Bool := decide (x.toNat ≤ Config.maxHoldLimit)

/-- The quotas one port's part of a quota block gives (R176). -/
def quotaOf (q : QuotaArgument) : Quota :=
  { blocks := q.blocks.toNat, descriptors := q.descriptors.toNat, conduits := q.conduits.toNat }

/-- Every quota in its range (R122, check 2). -/
def quotasInRange (q : PerPort Quota) : Bool :=
  Port.all.all (fun p => decide ((q.get p).blocks ≤ Config.totalBlocks ∧
    (q.get p).descriptors ≤ Config.totalDescriptors ∧ (q.get p).conduits ≤ Config.totalConduits))

/-- The sums of the quotas within the whole of each resource (R122, check 3; R115). -/
def quotaSumsFit (q : PerPort Quota) : Bool :=
  decide ((q.map Quota.blocks).sum ≤ Config.totalBlocks ∧
    (q.map Quota.descriptors).sum ≤ Config.totalDescriptors ∧
    (q.map Quota.conduits).sum ≤ Config.totalConduits)

end Sys2Proof.Machine
end

