-- ==== Sys2Proof/Machine/Layouts.lean ====
section
/-! DEFINITION. Every byte layout the part shifts out (chapter 9): enumerated values (R167, R170, R174), the status
header (R168), the event record (R172, R173), the conduit record (R175), the quota block and the partition record
(R176, R177), the descriptor and pool records (R178), and the output byte of a transaction (R156, R157, R163). -/

namespace Sys2Proof.Machine

/-! ### Values -/

/-- A number in one byte (R167). -/
def byteOf (n : Nat) : Byte := BitVec.ofNat 8 n

/-- A number in two bytes, most significant first (R167). -/
def halfBytes (n : Nat) : List Byte := bigEndian (BitVec.ofNat 16 n)

/-- A port in one byte (R167). -/
def Port.byte (p : Port) : Byte := byteOf p.toNat

/-- A yes or no item (R167). -/
def yesNo (b : Bool) : Byte := if b then 0x01 else 0x00

/-- A port or none: 0xFF when absent (R167). -/
def portByte (p : Option Port) : Byte := match p with | some p => Port.byte p | none => 0xFF

/-- A conduit or none: 0xFF when absent (R167). -/
def conduitByte (n : Option ConduitNo) : Byte := match n with | some n => byteOf n.val | none => 0xFF

/-- The code of an outcome (R170). -/
def OutcomeCode.byte : OutcomeCode → Byte
  | .done => 0x00
  | .excess => 0x01
  | .short => 0x02
  | .discarded => 0x03
  | .truncated => 0x10
  | .badCommand => 0x11
  | .badArgument => 0x12
  | .notReady => 0x13
  | .notAttached => 0x14
  | .alreadyAttached => 0x15
  | .wrongState => 0x20
  | .notProducer => 0x21
  | .notMember => 0x22
  | .peerAbsent => 0x23
  | .stale => 0x24
  | .overQuota => 0x30
  | .windowFull => 0x31
  | .tooLong => 0x32
  | .seqInUse => 0x33
  | .empty => 0x34
  | .holdsFull => 0x35
  | .unknownSeq => 0x36
  | .lapsed => 0x37
  | .busy => 0x40
  | .noProposal => 0x41
  | .belowUsage => 0x42
  | .alreadyTaken => 0x43
  | .noPending => 0x44

/-- The two bits of the port state in header byte 0 (R168). -/
def ShownState.bits : ShownState → Nat
  | .starting => 1
  | .detached => 2
  | .attached => 3

/-- The four header bytes (R168). -/
def StatusHeader.bytes (h : StatusHeader) : List Byte :=
  [byteOf (h.portState.bits * 64 + h.attentionCount * 16 + (if h.overflow then 8 else 0)),
   byteOf h.eventCount, h.lastOutcome.byte, h.lastCommand]

/-- The class code (R174). -/
def ConduitClass.byte : ConduitClass → Byte
  | .urgent => 0x01
  | .routine => 0x02

/-- The conduit state code (R174): 0x00 is FREE. -/
def Stage.byte : Stage → Byte
  | .offered _ => 0x01
  | .opened _ => 0x02
  | .draining _ => 0x03

/-- The vote code (R174). -/
def Vote.byte : Vote → Byte
  | .none => 0x00
  | .pending => 0x01
  | .accept => 0x02

/-! ### The event record -/

/-- The kind of a record (R172). -/
def Event.kind : Event → Byte
  | .arrived _ => 0x01
  | .windowOpen _ => 0x02
  | .holdLapsed _ _ => 0x03
  | .offerReceived _ _ _ _ _ => 0x04
  | .offerResolved _ _ _ => 0x05
  | .producerClosed _ => 0x06
  | .producerGone _ => 0x07
  | .consumerGone _ _ _ => 0x08
  | .conduitEnded _ _ _ => 0x09
  | .flushed _ _ => 0x0A
  | .attnTaken _ _ => 0x0B
  | .attnRefused _ _ => 0x0C
  | .partitionProposed _ _ => 0x0D
  | .partitionResolved _ _ _ => 0x0E
  | .peerAttached _ => 0x0F
  | .peerDetached _ _ => 0x10
  | .overflow _ => 0x11

/-- Result, port concerned and effective window of OFFER_RESOLVED (R94, R173, R174). -/
def OfferResult.fields : OfferResult → List Byte
  | .opened w => [0x01, 0xFF, byteOf w]
  | .declined p => [0x02, Port.byte p, 0]
  | .lapsed => [0x03, 0xFF, 0]
  | .withdrawn p => [0x04, Port.byte p, 0]
  | .memberGone p => [0x05, Port.byte p, 0]

/-- Result and port concerned of PARTITION_RESOLVED (R121, R173, R174). -/
def ProposalResult.fields : ProposalResult → List Byte
  | .adopted => [0x01, 0xFF]
  | .rejected p => [0x02, Port.byte p]
  | .lapsed => [0x03, 0xFF]
  | .abandoned p => [0x04, Port.byte p]
  | .withdrawn p => [0x05, Port.byte p]
  | .failedUsage p => [0x06, Port.byte p]

/-- The reason code of CONSUMER_GONE (R174). -/
def GoneReason.byte : GoneReason → Byte
  | .left => 0x01
  | .departed => 0x02

/-- The reason code of CONDUIT_ENDED (R174). -/
def EndReason.byte : EndReason → Byte
  | .drained => 0x01
  | .noConsumers => 0x02

/-- The cause code of PEER_DETACHED (R174). -/
def DepartureCause.byte : DepartureCause → Byte
  | .detach => 0x01
  | .reset => 0x02

/-- The field bytes a kind uses, from F0 on (R173); the reason of ATTN_REFUSED is TARGET_GONE, 0x01. -/
def Event.usedFields : Event → List Byte
  | .arrived n | .windowOpen n | .producerClosed n | .producerGone n => [byteOf n.val]
  | .holdLapsed n q => byteOf n.val :: bigEndian q
  | .offerReceived n g p w sz => [byteOf n.val, g, Port.byte p, byteOf w] ++ halfBytes sz
  | .offerResolved n g r => [byteOf n.val, g] ++ r.fields
  | .consumerGone n p r => [byteOf n.val, Port.byte p, r.byte]
  | .conduitEnded n g r => [byteOf n.val, g, r.byte]
  | .flushed n k => [byteOf n.val, byteOf k]
  | .attnTaken t v => [Port.byte t, byteOf v]
  | .attnRefused t v => [Port.byte t, byteOf v, 0x01]
  | .partitionProposed id p => [id, Port.byte p]
  | .partitionResolved id r g => id :: r.fields ++ bigEndian g
  | .peerAttached p => [Port.byte p]
  | .peerDetached p c => [Port.byte p, c.byte]
  | .overflow lost => halfBytes lost

/-- A list of bytes followed by zeros up to a length (R167). -/
def padded (k : Nat) (bs : List Byte) : List Byte := bs ++ List.replicate (k - bs.length) 0

/-- The eight bytes of an event record (R172). -/
def EventRecord.bytes (r : EventRecord) : List Byte := [r.event.kind, r.number] ++ padded 6 r.event.usedFields

/-- The eight bytes of the record of kind NONE, with the counter's value (R91, R173). -/
def noneRecord (counter : Byte) : List Byte := [0x00, counter] ++ List.replicate 6 0

/-! ### Information records -/

/-- Answer, window limit and size limit of a member entry (R175). -/
def Answered.bytes : Answered → List Byte
  | .pending => [0x01, 0, 0, 0]
  | .accepted w sz => [0x02, byteOf w] ++ halfBytes sz

/-- A member entry of the conduit record (R175). -/
def Endpoint.entry (e : Endpoint) : List Byte :=
  Port.byte e.port :: e.answer.bytes ++
    [byteOf e.queue.length, byteOf e.holds.length, byteOf e.lapsed.length]

/-- A member entry beyond the member count (R175). -/
def absentEntry : List Byte := 0xFF :: List.replicate 7 0

/-- The three member entries (R175). -/
def memberEntries (ms : List Endpoint) : List Byte :=
  ((ms.map Endpoint.entry ++ List.replicate 3 absentEntry).take 3).flatten

/-- Positions 17 to 24 of the conduit record: offer time remaining, effective window, effective maximum size,
next sequence, outstanding and window latch (R175). -/
def State.stageBytes (s : State) : Stage → List Byte
  | .offered d => [byteOf (s.timeRemaining d), 0, 0, 0, 0, 0, 0, 0]
  | .opened f | .draining f =>
    [0, byteOf f.window] ++ halfBytes f.maxSize ++ bigEndian f.nextSequence ++
      [byteOf f.outstanding, yesNo f.windowLatch]

/-- The conduit record of 45 bytes (R49, R175). -/
def State.conduitRecord (s : State) (n : ConduitNo) : List Byte :=
  match s.channel n with
  | none =>
    [byteOf n.val, 0x00, (s.conduit n).generation, 0xFF] ++ List.replicate 17 0 ++ memberEntries []
  | some ch =>
    [byteOf n.val, ch.stage.byte, (s.conduit n).generation, Port.byte ch.producer,
     yesNo ch.producerPresent, byteOf (s.chargedConduits ch.producer), ch.cls.byte,
     byteOf ch.requestedWindow] ++ halfBytes ch.requestedSize ++ halfBytes ch.holdLimit ++
      s.stageBytes ch.stage ++ [byteOf ch.members.length] ++ memberEntries ch.members

/-- One port's part of a quota block (R176). -/
def Quota.bytes (q : Quota) : List Byte := halfBytes q.blocks ++ halfBytes q.descriptors ++ [byteOf q.conduits]

/-- A quota block (R176). -/
def quotaBlock (q : PerPort Quota) : List Byte := (Port.all.map (fun p => (q.get p).bytes)).flatten

/-- The partition record of 50 bytes (R131, R177). -/
def State.partitionRecord (s : State) : List Byte :=
  bigEndian s.partition.generation ++ quotaBlock s.partition.quotas ++
    match s.partition.proposal with
    | none => [0x00, 0, 0xFF] ++ List.replicate 25 0
    | some pr =>
      [0x01, pr.id, Port.byte pr.proposer] ++ quotaBlock pr.quotas ++
        Port.all.map (fun p => (pr.votes.get p).byte) ++ [byteOf (s.timeRemaining pr.deadline)]

/-- The descriptor record of 12 bytes (R22, R178). -/
def State.descriptorRecord (s : State) (h : Handle) : List Byte :=
  match s.segment h with
  | none => [byteOf h.val, 0x00, 0xFF, 0xFF] ++ List.replicate 8 0
  | some g =>
    let sized := halfBytes g.length ++ [byteOf (blockCount g.length)]
    match g.stage with
    | .filling =>
      [byteOf h.val, 0x01, Port.byte g.producer, conduitByte g.conduit] ++ [0, 0] ++ sized ++ [0, 0, 0]
    | .live q r =>
      [byteOf h.val, 0x02, Port.byte g.producer, conduitByte g.conduit] ++ bigEndian q ++ sized ++
        [byteOf r.queue, byteOf r.hold, byteOf r.transfer]

/-- The pool record of 24 bytes (R21, R178). -/
def State.poolRecord (s : State) : List Byte :=
  halfBytes s.pool.freeBlocks ++ halfBytes s.pool.freeList.length ++
    (Port.all.map (fun p => halfBytes (s.pool.chargedBlocks.get p) ++
      halfBytes (s.pool.chargedDescriptors.get p) ++ [byteOf (s.chargedConduits p)])).flatten

/-! ### The output of a transaction -/

/-- The payload byte a transfer shifts out at an offset, and 0 after the payload or without a transfer (R2, R163). -/
def State.transferByte (s : State) (p : Port) (offset : Nat) : Byte :=
  match s.transferHandle? p with
  | none => 0
  | some h =>
    match s.segment h with
    | none => 0
    | some g => g.payload.getD offset 0

/-- The byte a port's transaction shifts out at a position: the header, zeros up to the reply position, the reply,
a read's payload and then zeros (R149, R156, R157, R163). None is high impedance: no transaction (R134, R148). -/
def State.shiftedOut (s : State) (p : Port) (position : Nat) : Option Byte :=
  match (s.port p).transaction with
  | none => none
  | some t =>
    some (
      if position < 4 then t.header.bytes.getD position 0
      else if position < t.replyPosition then 0
      else if position - t.replyPosition < t.reply.length then t.reply.getD (position - t.replyPosition) 0
      else s.transferByte p (position - t.replyPosition - t.reply.length))

end Sys2Proof.Machine
end

