-- ==== Sys2Proof/Machine/Serial.lean ====
section
/-! DEFINITION. The framing of every command (chapter 8): where its bytes go by the phase of the port's transaction
(R148, R157, R162), the checks of the port state (R135, R154, R155), the writing of the outcome record (R159, R160)
and of the reply (R156, R171), the completion of a fill (R55 to R57) and the end of a transfer (R163). -/

namespace Sys2Proof.Machine

/-- What a command's owning block answers at the acceptance instant: the state it leaves, the outcome, the
conduit the part chose, the handle it placed, and the reply bytes that follow a DONE. -/
structure Answer where
  state : State
  outcome : OutcomeCode
  conduit : Option ConduitNo := none
  handle : Option Handle := none
  fields : List Byte := []

/-- A refusal: the outcome alone, and no effect (R153, R171). -/
def refuse (s : State) (o : OutcomeCode) : Answer := { state := s, outcome := o }

/-- The port-state check: the refusal of a command in the state a port shows, or none where it is admitted
(R135, R155). -/
def admission (c : Command) : ShownState → Option OutcomeCode
  | .starting => some .notReady
  | .detached =>
    match c with
    | .status | .attach | .poolInfo | .segmentInfo | .conduitInfo | .readPartition => none
    | _ => some .notAttached
  | .attached =>
    match c with
    | .attach => some .alreadyAttached
    | _ => none

/-- The outcome record replaced, except at an accepted STATUS, which leaves it as it was (R160), and at an
accepted DETACH, whose departure has set it to DONE and STATUS (R139). -/
def State.writeOutcome (s : State) (p : Port) (c : Command) (a : Answer) (named : Option ConduitNo) : State :=
  if (c = .status ∨ c = .detach) ∧ a.outcome = .done then s
  else s.setPort p { s.port p with
    outcome := { outcome := a.outcome, command := c.code, conduit := a.conduit.or named, handle := a.handle } }

/-- The reply bytes from the reply position on: the outcome, and behind a DONE the command's fields (R157, R171).
An accepted STATUS has no reply (R156). -/
def replyBytes (c : Command) (a : Answer) : List Byte :=
  if a.outcome = .done then (if c = .status then [] else a.outcome.byte :: a.fields) else [a.outcome.byte]

/-- The transaction enters the payload phase at an accepted POST and the reply phase otherwise (R148). -/
def State.enterReply (s : State) (p : Port) (t : Transaction) (c : Command) (a : Answer) : State :=
  s.setPort p { s.port p with
    transaction := some { t with
      phase := if c = .post ∧ a.outcome = .done then .payload else .reply
      byteCount := 1 + c.argumentCount
      replyPosition := c.replyPosition
      reply := replyBytes c a } }

/-- The acceptance instant: the owning block's answer, then the outcome record, then the reply (R153, R160). -/
def State.accept (p : Port) (c : Command) (named : Option ConduitNo) (t : Transaction) (a : Answer) : State :=
  (a.state.writeOutcome p c a named).enterReply p t c a

/-- Payload bytes received in the payload phase: each is counted, and stored while the segment is short of its
length (R2, R53, R162). -/
def State.receivePayload (s : State) (p : Port) (bytes : List Byte) : State :=
  match (s.port p).transaction, s.fillHandle? p with
  | some t, some h =>
    let counted := s.setPort p { s.port p with
      transaction := some { t with byteCount := t.byteCount + bytes.length } }
    match s.segment h with
    | some g => counted.setSegment h (some { g with payload := (g.payload ++ bytes).take g.length })
    | none => counted
  | _, _ => s

/-- The frame of this code and these argument bytes can be the one in progress: nothing of it is in yet, or the
arguments phase holds its code and its first argument bytes (R148, R150). -/
def Phase.continuedBy : Phase → Byte → List Byte → Bool
  | .command, _, _ => true
  | .arguments code received, c, args => code == c && received.isPrefixOf args
  | .reply, _, _ | .payload, _, _ => false

/-- A command frame shifted in on a port. A port that ignores select, or carries no transaction, does not see it
(R134, R148). In the reply phase its bytes are ignored (R157), in the payload phase they are payload (R162). In
the command phase, or in the arguments phase of the same frame, its last byte is the acceptance instant: the
port-state check, then the owning block (R154). A frame that does not go on as the arguments phase has begun is no
occurrence, and nothing happens (notes/assumptions/4.md). -/
def State.transact (s : State) (p : Port) (c : Command) (args : List Byte) (named : Option ConduitNo)
    (owner : State → Answer) : State :=
  match s.shownState p, (s.port p).transaction with
  | some shown, some t =>
    match t.phase with
    | .reply => s
    | .payload => s.receivePayload p (c.code :: args)
    | .command | .arguments _ _ =>
      if t.phase.continuedBy c.code args then
        match admission c shown with
        | some refusal => State.accept p c named t (refuse s refusal)
        | none => State.accept p c named t (owner s)
      else s
  | _, _ => s

/-- The transaction of a port ended: select is released (R148). -/
def State.endTransaction (s : State) (p : Port) : State :=
  s.setPort p { s.port p with transaction := none }

/-- TRUNCATED written with the received code, conduit and handle absent, and the transaction ended (R152). -/
def State.endTruncated (s : State) (p : Port) (code : Byte) : State :=
  s.setPort p { s.port p with
    outcome := { outcome := .truncated, command := code, conduit := none, handle := none }
    transaction := none }

/-- The outcome field of a port's record replaced, the other three kept (R160, R162). -/
def State.setOutcome (s : State) (p : Port) (o : OutcomeCode) : State :=
  s.setPort p { s.port p with outcome := { (s.port p).outcome with outcome := o } }

/-- The transfer end claim for the descriptor the outcome record names, whose handle field becomes absent with it
(R15, R163). Without a transfer there is no claim (R164). -/
def State.endTransfer (s : State) (p : Port) : State :=
  match s.transferHandle? p with
  | none => s
  | some h =>
    let claimed := s.claim .transferEnd h
    claimed.setPort p { claimed.port p with outcome := { (claimed.port p).outcome with handle := none } }

/-- A completion with delivery on an OPEN or DRAINING conduit with members (R8, R55, R64). -/
def State.deliver (s : State) (h : Handle) (g : Segment) (n : ConduitNo) (ch : Channel) (f : Flow) : State :=
  let queued := s.setChannel n (some { ch with
    members := ch.members.map (fun e => { e with queue := e.queue ++ [h] })
    stage := ch.stage.mapFlow (fun f => { f with nextSequence := f.nextSequence + 1 }) })
  let live := queued.setSegment h (some { g with
    stage := .live f.nextSequence { queue := ch.members.length, hold := 0, transfer := 0 } })
  live.appendEvents ((ch.members.filter (fun e => e.queue.isEmpty)).map (fun e => e.port)) (.arrived n)

/-- Where a completed fill is delivered: the conduit its descriptor names, while that has a member (R8, R55). -/
def State.deliveryTarget (s : State) (g : Segment) : Option (ConduitNo × Channel × Flow) :=
  match g.conduit with
  | none => none
  | some n =>
    match s.channel n with
    | none => none
    | some ch =>
      match ch.stage.flow? with
      | none => none
      | some f => if ch.members.isEmpty then none else some (n, ch, f)

/-- The completion of a fill at select release, by the count of payload bytes received: SHORT, DISCARDED, or a
delivery with DONE or EXCESS (R55, R56, R57, R162). -/
def State.completeFill (s : State) (p : Port) (h : Handle) (count : Nat) : State :=
  match s.segment h with
  | none => s
  | some g =>
    if count < g.length then (s.freeDescriptor h).setOutcome p .short
    else
      match s.deliveryTarget g with
      | none => (s.freeDescriptor h).setOutcome p .discarded
      | some (n, ch, f) => (s.deliver h g n ch f).setOutcome p (if count = g.length then .done else .excess)

/-- Select released on a port (R148, R164): a release before byte 0 is complete has no effect (R149), a release in
the arguments phase truncates the command (R152), a release in the reply phase ends the transfer if there is one
(R163), and a release in the payload phase completes the fill (R162). The transaction ends. -/
def State.releaseSelect (s : State) (p : Port) : State :=
  match (s.port p).transaction with
  | none => s
  | some t =>
    match t.phase with
    | .command => s.endTransaction p
    | .arguments code _ => s.endTruncated p code
    | .reply => (s.endTransfer p).endTransaction p
    | .payload =>
      match s.fillHandle? p with
      | none => s.endTransaction p
      | some h => (s.completeFill p h t.payloadCount).endTransaction p

/-- The transaction in flight ended by an assertion of the port's reset line, according to how far it had gone: a
fill is abandoned (R11), a transfer ends (R15), anything else just ends; no outcome is written (R140). -/
def State.abort (s : State) (p : Port) : State :=
  match s.fillHandle? p with
  | some h => (s.freeDescriptor h).endTransaction p
  | none => (s.endTransfer p).endTransaction p

/-! ### The checks every conduit command begins with -/

/-- The conduit number and slot state checked, and the command's own checks then made on the slot (R27). -/
def State.onConduit (s : State) (conduit : Byte) (k : ConduitNo → Channel → Answer) : Answer :=
  match conduitOf? conduit with
  | none => refuse s .badArgument
  | some n =>
    match s.channel n with
    | none => refuse s .wrongState
    | some ch => k n ch

/-- The producer check: the port named in the producer field, with producer present yes (R28). -/
def Channel.presentProducer (ch : Channel) (p : Port) : Bool := ch.producer == p && ch.producerPresent

/-- The checks of a producer's command on a conduit (R27, R28). -/
def State.asProducer (s : State) (p : Port) (conduit : Byte) (k : ConduitNo → Channel → Answer) : Answer :=
  s.onConduit conduit (fun n ch => if ch.presentProducer p then k n ch else refuse s .notProducer)

/-- The checks of a member's command on an OPEN or DRAINING conduit (R27, R28, and the state check that R42, R67,
R73, R74 and R78 place after the membership check). -/
def State.asMember (s : State) (p : Port) (conduit : Byte) (k : ConduitNo → Channel → Endpoint → Answer) : Answer :=
  s.onConduit conduit (fun n ch =>
    match ch.endpoint? p with
    | none => refuse s .notMember
    | some e =>
      match ch.stage with
      | .offered _ => refuse s .wrongState
      | .opened _ | .draining _ => k n ch e)

end Sys2Proof.Machine
end

