-- ==== Sys2Proof/Machine/EventUnit.lean ====
section
/-! DEFINITION. Reading a port's event queue: NEXT_EVENT (R90, R91). -/

namespace Sys2Proof.Machine

/-- The effects of NEXT_EVENT at its acceptance: the head record popped, or the record of kind NONE (R90, R91). -/
def nextEventAnswer (p : Port) (s : State) : Answer :=
  match (s.events.get p).records with
  | [] => { state := s, outcome := .done, fields := noneRecord (s.events.get p).counter }
  | r :: rest =>
    { state := { s with events := s.events.set p { s.events.get p with records := rest } }
      outcome := .done
      fields := r.bytes }

/-- NEXT_EVENT (R90, R91). -/
def execNextEvent (p : Port) (s : State) : Host.Outcome State Fault Refusal :=
  .next (s.transact p .nextEvent [] none (nextEventAnswer p))

end Sys2Proof.Machine
end

