-- ==== Sys2Proof/Machine/PoolQueries.lean ====
section
/-! DEFINITION. The pool queries POOL_INFO (R21) and SEGMENT_INFO (R22). -/

namespace Sys2Proof.Machine

/-- POOL_INFO (R21, R178). -/
def execPoolInfo (p : Port) (s : State) : Host.Outcome State Fault Refusal :=
  .next (s.transact p .poolInfo [] none (fun s => { state := s, outcome := .done, fields := s.poolRecord }))

/-- SEGMENT_INFO (R22, R178). -/
def execSegmentInfo (p : Port) (handle : Byte) (s : State) : Host.Outcome State Fault Refusal :=
  .next (s.transact p .segmentInfo [handle] none
    (fun s => { state := s, outcome := .done, fields := s.descriptorRecord (handleOf handle) }))

end Sys2Proof.Machine
end

