-- ==== Sys2Proof/Machine/PartitionUnit.lean ====
section
/-! DEFINITION. The Partition Unit (chapter 6): quota checks (R116), proposals and their endings (R118 to R130), and
the commands PROPOSE, VOTE, CANCEL_PROPOSAL and READ_PARTITION. -/

namespace Sys2Proof.Machine

/-- A port's charged blocks, descriptors and conduits are each within the quotas given (R120, R122 check 4). -/
def State.usageWithin (s : State) (q : PerPort Quota) (p : Port) : Bool :=
  decide (s.pool.chargedBlocks.get p ≤ (q.get p).blocks ∧
    s.pool.chargedDescriptors.get p ≤ (q.get p).descriptors ∧ s.chargedConduits p ≤ (q.get p).conduits)

/-- The quota check of an OFFER against the active record (R116). -/
def State.conduitQuotaAllows (s : State) (p : Port) : Bool :=
  decide (s.chargedConduits p + 1 ≤ (s.partition.quotas.get p).conduits)

/-- The quota check of a POST against the active record (R116). -/
def State.segmentQuotaAllows (s : State) (p : Port) (length : Nat) : Bool :=
  decide (s.pool.chargedDescriptors.get p + 1 ≤ (s.partition.quotas.get p).descriptors ∧
    s.pool.chargedBlocks.get p + blockCount length ≤ (s.partition.quotas.get p).blocks)

/-- The voters of a proposal: the ports whose vote is ACCEPT or PENDING, in ascending order (R118). -/
def Proposal.voters (pr : Proposal) : List Port := Port.all.filter (fun p => pr.votes.get p != .none)

/-- Some voter has not voted yet. -/
def Proposal.undecided (pr : Proposal) : Bool := Port.all.any (fun p => pr.votes.get p == .pending)

/-- Resolving a proposal: it is discarded, with its deadline, and PARTITION_RESOLVED goes to each voter (R121). -/
def State.resolveProposal (s : State) (pr : Proposal) (r : ProposalResult) : State :=
  ({ s with partition := { s.partition with proposal := none } } : State).appendEvents pr.voters
    (.partitionResolved pr.id r s.partition.generation)

/-- The adoption check with its outcome (R120). -/
def State.adoptProposal (s : State) (pr : Proposal) : State :=
  match Port.all.find? (fun p => !s.usageWithin pr.quotas p) with
  | some p => s.resolveProposal pr (.failedUsage p)
  | none =>
    ({ s with partition := { s.partition with
        quotas := pr.quotas
        generation := s.partition.generation + 1 } } : State).resolveProposal pr .adopted

/-- A pending proposal abandoned by the attach or departure of a port (R129). -/
def State.abandonProposal (s : State) (p : Port) : State :=
  match s.partition.proposal with
  | none => s
  | some pr => s.resolveProposal pr (.abandoned p)

/-- The proposal id that follows one: 255 is followed by 1 (R119). -/
def nextProposalId (id : Byte) : Byte := if id = 255 then 1 else id + 1

/-- The votes of a new proposal (R123). -/
def State.firstVotes (s : State) (proposer : Port) : PerPort Vote :=
  PerPort.ofFn (fun q => if q = proposer then .accept else if s.Attached q then .pending else .none)

/-- The effects of an accepted PROPOSE (R123), with the adoption where there is no other voter. -/
def State.makeProposal (s : State) (p : Port) (q : PerPort Quota) : State :=
  let pr : Proposal :=
    { id := nextProposalId s.partition.idCounter
      proposer := p
      quotas := q
      votes := s.firstVotes p
      deadline := s.deadlineAfter Config.proposalLimit }
  let made := ({ s with partition := { s.partition with
      proposal := some pr
      idCounter := pr.id } } : State).appendEvents (pr.voters.filter (fun v => v != p))
    (.partitionProposed pr.id p)
  if pr.undecided then made else made.adoptProposal pr

/-- The checks and effects of PROPOSE at its acceptance (R122, R123). -/
def proposeAnswer (p : Port) (quotas : PerPort QuotaArgument) (s : State) : Answer :=
  let q := quotas.map quotaOf
  if s.partition.proposal.isSome then refuse s .busy
  else if !quotasInRange q then refuse s .badArgument
  else if !quotaSumsFit q then refuse s .badArgument
  else if !Port.all.all (fun v => s.usageWithin q v) then refuse s .belowUsage
  else
    { state := s.makeProposal p q
      outcome := .done
      fields := [nextProposalId s.partition.idCounter] }

/-- The checks and effects of VOTE at its acceptance (R125, R126). -/
def voteAnswer (p : Port) (id choice : Byte) (s : State) : Answer :=
  match s.partition.proposal with
  | none => refuse s .noProposal
  | some pr =>
    if id ≠ pr.id then refuse s .stale
    else if pr.votes.get p ≠ .pending then refuse s .wrongState
    else
      match voteChoiceOf? choice with
      | none => refuse s .badArgument
      | some .reject => { state := s.resolveProposal pr (.rejected p), outcome := .done }
      | some .accept =>
        let voted := { pr with votes := pr.votes.set p .accept }
        let recorded : State := { s with partition := { s.partition with proposal := some voted } }
        { state := if voted.undecided then recorded else recorded.adoptProposal voted, outcome := .done }

/-- The checks and effects of CANCEL_PROPOSAL at its acceptance (R128). -/
def cancelProposalAnswer (p : Port) (id : Byte) (s : State) : Answer :=
  match s.partition.proposal with
  | none => refuse s .noProposal
  | some pr =>
    if id ≠ pr.id then refuse s .stale
    else if pr.proposer ≠ p then refuse s .wrongState
    else { state := s.resolveProposal pr (.withdrawn p), outcome := .done }

/-- The expiry of the proposal deadline (R124). Where no proposal is pending, or its deadline is not reached, there
is no expiry and nothing happens (R181). -/
def State.lapseProposal (s : State) : State :=
  match s.partition.proposal with
  | none => s
  | some pr => if pr.deadline = s.time.counter then s.resolveProposal pr .lapsed else s

/-- PROPOSE (R122, R123). -/
def execPropose (p : Port) (quotas : PerPort QuotaArgument) (s : State) : Host.Outcome State Fault Refusal :=
  .next (s.transact p .propose (quotaArgumentBytes quotas) none (proposeAnswer p quotas))

/-- VOTE (R125, R126). -/
def execVote (p : Port) (id choice : Byte) (s : State) : Host.Outcome State Fault Refusal :=
  .next (s.transact p .vote [id, choice] none (voteAnswer p id choice))

/-- CANCEL_PROPOSAL (R128). -/
def execCancelProposal (p : Port) (id : Byte) (s : State) : Host.Outcome State Fault Refusal :=
  .next (s.transact p .cancelProposal [id] none (cancelProposalAnswer p id))

/-- READ_PARTITION (R131, R177). -/
def execReadPartition (p : Port) (s : State) : Host.Outcome State Fault Refusal :=
  .next (s.transact p .readPartition [] none
    (fun s => { state := s, outcome := .done, fields := s.partitionRecord }))

/-- PROPOSAL_LAPSE (R124). -/
def execProposalLapse (s : State) : Host.Outcome State Fault Refusal := .next s.lapseProposal

end Sys2Proof.Machine
end

