-- ==== Sys2Proof/Machine/DeliveryEngine.lean ====
section
/-! DEFINITION. The delivery engine (chapter 3): POST and the completion of its fill, TAKE, TAKE_ANY, PEEK and
READ_HELD with the end of their transfer, holds and their lapse, RELEASE and FLUSH. -/

namespace Sys2Proof.Machine

/-! ### Posting -/

/-- Some LIVE descriptor that names the conduit carries the sequence (R20). -/
def State.sequenceInUse (s : State) (n : ConduitNo) (q : Half) : Bool :=
  s.pool.descriptors.toList.any (fun d => d.any (fun g =>
    match g.stage with
    | .live q' _ => decide (g.conduit = some n) && q' == q
    | .filling => false))

/-- The effects of an accepted POST: the allocation, and outstanding raised by one (R7, R52). -/
def State.startFill (s : State) (h : Handle) (p : Port) (n : ConduitNo) (length : Nat) : State :=
  ({ s with pool := s.pool.allocate h p n length } : State).updateChannel n
    (Channel.mapFlow (fun f => { f with outstanding := f.outstanding + 1 }))

/-- The checks and effects of POST at its acceptance (R51, R52). A WINDOW_FULL refusal sets the window latch (R61).
A passing quota check always finds a FREE descriptor (R115, R117); a state in which it did not is refused as over
quota. -/
def postAnswer (p : Port) (conduit : Byte) (length : Half) (s : State) : Answer :=
  s.asProducer p conduit (fun n ch =>
    match ch.stage with
    | .offered _ | .draining _ => refuse s .wrongState
    | .opened f =>
      if length = 0 then refuse s .badArgument
      else if f.maxSize < length.toNat then refuse s .tooLong
      else if ¬ f.outstanding < f.window then
        refuse (s.updateChannel n (Channel.mapFlow (fun f => { f with windowLatch := true }))) .windowFull
      else if s.sequenceInUse n f.nextSequence then refuse s .seqInUse
      else if !s.segmentQuotaAllows p length.toNat then refuse s .overQuota
      else
        match s.pool.freeList with
        | [] => refuse s .overQuota
        | h :: _ => { state := s.startFill h p n length.toNat, outcome := .done, handle := some h })

/-! ### Reading -/

/-- Sequence, handle and length of a descriptor in the reply of a read (R65, R169). -/
def State.readFields (s : State) (h : Handle) : List Byte :=
  bigEndian (s.sequenceOf h) ++ [byteOf h.val] ++
    halfBytes (match s.segment h with | some g => g.length | none => 0)

/-- The deadline of a hold taken now on a conduit with this hold limit: none for 0 (R75, R180). -/
def State.holdDeadline (s : State) (limit : Nat) : Option Tick :=
  if limit = 0 then none else some (s.deadlineAfter limit)

/-- The effects of a TAKE on the head of an endpoint's delivery queue (R68). -/
def State.takeHead (s : State) (p : Port) (n : ConduitNo) (ch : Channel) (h : Handle) : State :=
  ((s.updateEndpoint n p (fun e =>
      { e with
        queue := e.queue.tail
        holds := e.holds ++
          [{ sequence := s.sequenceOf h, handle := h, deadline := s.holdDeadline ch.holdLimit }] })).claim
    .take h).drainCheck n

/-- The endpoint has room for one more hold (R67, R69). -/
def Endpoint.hasHoldRoom (e : Endpoint) : Bool := decide (e.holds.length < Config.holdsPerEndpoint)

/-- The checks and effects of TAKE at its acceptance (R67, R68). -/
def takeAnswer (p : Port) (conduit : Byte) (s : State) : Answer :=
  s.asMember p conduit (fun n ch e =>
    match e.queue with
    | [] => refuse s .empty
    | h :: _ =>
      if !e.hasHoldRoom then refuse s .holdsFull
      else
        { state := s.takeHead p n ch h, outcome := .done, handle := some h, fields := s.readFields h })

/-- The channel and the endpoint a port has in an OPEN or DRAINING conduit whose delivery queue for it is not
empty, with the head of that queue (R69). -/
def State.waiting? (s : State) (p : Port) (n : ConduitNo) : Option (Channel × Endpoint × Handle) :=
  match s.channel n with
  | none => none
  | some ch =>
    match ch.stage.flow?, ch.endpoint? p with
    | some _, some e =>
      match e.queue with
      | [] => none
      | h :: _ => some (ch, e, h)
    | _, _ => none

/-- The port's endpoint in the slot is eligible for TAKE_ANY, in a conduit of the class (R69). -/
def State.eligible (s : State) (p : Port) (cls : ConduitClass) (n : ConduitNo) : Bool :=
  (s.waiting? p n).any (fun (ch, e, _) => ch.cls == cls && e.hasHoldRoom)

/-- The conduit numbers from the one above the rotation point, wrapping, to the rotation point itself (R70). -/
def searchOrder (rotation : ConduitNo) : List ConduitNo :=
  (List.range 24).map (fun k => Fin.ofNat 24 (rotation.val + 1 + k))

/-- The conduit the TAKE_ANY arbiter chooses: URGENT before ROUTINE, each class by rotation (R70). -/
def State.takeAnyChoice (s : State) (p : Port) : Option ConduitNo :=
  let order := searchOrder (s.port p).rotation
  (order.find? (s.eligible p .urgent)).or (order.find? (s.eligible p .routine))

/-- The checks and effects of TAKE_ANY at its acceptance (R69, R70, R71). -/
def takeAnyAnswer (p : Port) (s : State) : Answer :=
  match s.takeAnyChoice p with
  | none =>
    if allConduits.any (fun n => (s.waiting? p n).isSome) then refuse s .holdsFull else refuse s .empty
  | some n =>
    match s.waiting? p n with
    | none => refuse s .empty
    | some (ch, _, h) =>
      let taken := s.takeHead p n ch h
      { state := taken.setPort p { taken.port p with rotation := n }
        outcome := .done
        conduit := some n
        handle := some h
        fields := byteOf n.val :: s.readFields h }

/-- The checks and effects of PEEK at its acceptance (R73). -/
def peekAnswer (p : Port) (conduit : Byte) (s : State) : Answer :=
  s.asMember p conduit (fun _ _ e =>
    match e.queue with
    | [] => refuse s .empty
    | h :: _ => { state := s.claim .peek h, outcome := .done, handle := some h, fields := s.readFields h })

/-- The hold of an endpoint that carries a sequence (R74, R78). -/
def Endpoint.hold? (e : Endpoint) (q : Half) : Option Hold := e.holds.find? (fun d => d.sequence == q)

/-- The checks and effects of READ_HELD at its acceptance (R74). -/
def readHeldAnswer (p : Port) (conduit : Byte) (sequence : Half) (s : State) : Answer :=
  s.asMember p conduit (fun _ _ e =>
    match e.hold? sequence with
    | none => refuse s .unknownSeq
    | some d =>
      { state := s.claim .heldRead d.handle
        outcome := .done
        handle := some d.handle
        fields := s.readFields d.handle })

/-! ### Holds -/

/-- The endpoint without one hold, and so without its deadline. -/
def Endpoint.dropHold (e : Endpoint) (d : Hold) : Endpoint := { e with holds := e.holds.erase d }

/-- A lapsed list after a lapse: an older entry of the sequence goes, then the oldest of four, then the sequence
joins at the tail (R77). -/
def appendLapsed (l : List Half) (q : Half) : List Half :=
  let others := l.erase q
  (if others.length < Config.lapsedPerEndpoint then others else others.tail) ++ [q]

/-- The checks and effects of RELEASE at its acceptance (R78). -/
def releaseAnswer (p : Port) (conduit : Byte) (sequence : Half) (s : State) : Answer :=
  s.asMember p conduit (fun n _ e =>
    match e.hold? sequence with
    | some d =>
      { state := ((s.updateEndpoint n p (fun e => e.dropHold d)).claim .release d.handle).drainCheck n
        outcome := .done }
    | none =>
      if e.lapsed.contains sequence then
        { state := s.updateEndpoint n p (fun e => { e with lapsed := e.lapsed.erase sequence })
          outcome := .lapsed }
      else refuse s .unknownSeq)

/-- The hold of a member that carries the sequence and whose deadline is reached. -/
def State.dueHold? (s : State) (n : ConduitNo) (p : Port) (q : Half) : Option Hold :=
  match s.channel n with
  | none => none
  | some ch =>
    match ch.endpoint? p with
    | none => none
    | some e => e.holds.find? (fun d => d.sequence == q && d.deadline == some s.time.counter)

/-- The expiry of a hold's deadline (R76). Where no hold of the endpoint carries the sequence with a deadline that
is reached, there is no expiry and nothing happens (R181). -/
def State.lapseHold (s : State) (n : ConduitNo) (p : Port) (q : Half) : State :=
  match s.dueHold? n p q with
  | none => s
  | some d =>
    let dropped := (s.updateEndpoint n p (fun e => e.dropHold d)).claim .holdLapse d.handle
    let listed := dropped.updateEndpoint n p (fun e => { e with lapsed := appendLapsed e.lapsed q })
    (listed.appendEvent p (.holdLapsed n q)).drainCheck n

/-! ### Flushing -/

/-- One member's delivery queue emptied by a FLUSH, from head to tail (R81). -/
def State.flushMember (s : State) (n : ConduitNo) (e : Endpoint) : State :=
  let emptied := (s.updateEndpoint n e.port (fun e => { e with queue := [] })).claims .flush e.queue
  if e.queue.isEmpty then emptied else emptied.appendEvent e.port (.flushed n e.queue.length)

/-- The checks and effects of FLUSH at its acceptance (R80, R81). -/
def flushAnswer (p : Port) (conduit : Byte) (s : State) : Answer :=
  s.asProducer p conduit (fun n ch =>
    match ch.stage with
    | .offered _ => refuse s .wrongState
    | .opened _ | .draining _ =>
      { state := (ch.members.foldl (fun s e => s.flushMember n e) s).drainCheck n
        outcome := .done
        fields := [byteOf (ch.members.map (fun e => e.queue.length)).sum] })

/-! ### The meanings -/

/-- POST (R51, R52). -/
def execPost (p : Port) (conduit : Byte) (length : Half) (s : State) : Host.Outcome State Fault Refusal :=
  .next (s.transact p .post (conduit :: bigEndian length) (conduitOf? conduit) (postAnswer p conduit length))

/-- TAKE (R67, R68). -/
def execTake (p : Port) (conduit : Byte) (s : State) : Host.Outcome State Fault Refusal :=
  .next (s.transact p .take [conduit] (conduitOf? conduit) (takeAnswer p conduit))

/-- TAKE_ANY (R69 to R71). -/
def execTakeAny (p : Port) (s : State) : Host.Outcome State Fault Refusal :=
  .next (s.transact p .takeAny [] none (takeAnyAnswer p))

/-- PEEK (R73). -/
def execPeek (p : Port) (conduit : Byte) (s : State) : Host.Outcome State Fault Refusal :=
  .next (s.transact p .peek [conduit] (conduitOf? conduit) (peekAnswer p conduit))

/-- READ_HELD (R74). -/
def execReadHeld (p : Port) (conduit : Byte) (sequence : Half) (s : State) : Host.Outcome State Fault Refusal :=
  .next (s.transact p .readHeld (conduit :: bigEndian sequence) (conduitOf? conduit)
    (readHeldAnswer p conduit sequence))

/-- RELEASE (R78). -/
def execRelease (p : Port) (conduit : Byte) (sequence : Half) (s : State) : Host.Outcome State Fault Refusal :=
  .next (s.transact p .release (conduit :: bigEndian sequence) (conduitOf? conduit)
    (releaseAnswer p conduit sequence))

/-- FLUSH (R80, R81). -/
def execFlush (p : Port) (conduit : Byte) (s : State) : Host.Outcome State Fault Refusal :=
  .next (s.transact p .flush [conduit] (conduitOf? conduit) (flushAnswer p conduit))

/-- FILL_COMPLETION: in the payload phase the bytes are received and select is released (R162). On a port whose
transaction is in no payload phase there is no fill to complete, and nothing happens. -/
def execFillCompletion (p : Port) (bytes : List Byte) (s : State) : Host.Outcome State Fault Refusal :=
  .next (match s.fillHandle? p with
    | some _ => (s.receivePayload p bytes).releaseSelect p
    | none => s)

/-- TRANSFER_END: select is released (R163, R164). -/
def execTransferEnd (p : Port) (s : State) : Host.Outcome State Fault Refusal := .next (s.releaseSelect p)

/-- HOLD_LAPSE (R76). -/
def execHoldLapse (n : ConduitNo) (p : Port) (q : Half) (s : State) : Host.Outcome State Fault Refusal :=
  .next (s.lapseHold n p q)

end Sys2Proof.Machine
end

