-- ==== Sys2Proof/Machine/AttentionUnit.lean ====
section
/-! DEFINITION. The Attention Unit (chapter 5): ATTEND, ACCEPT_ATTN and WITHDRAW_ATTN (R103 to R107), and what a
departure does to the requests to and from a port (R109, R110). -/

namespace Sys2Proof.Machine

/-- The pair state of a source and a target (R102). -/
def Attention.pair (a : Attention) (source target : Port) : PairState := (a.pairs.get source).get target

/-- The Attention Unit with one pair state replaced. -/
def Attention.setPair (a : Attention) (source target : Port) (st : PairState) : Attention :=
  { a with pairs := a.pairs.set source ((a.pairs.get source).set target st) }

/-- The Attention Unit with one port's queue replaced. -/
def Attention.setQueue (a : Attention) (target : Port) (q : List AttentionEntry) : Attention :=
  { a with queues := a.queues.set target q }

/-- A queue without the entries of one source; the entries behind close up (R101). -/
def withoutSource (source : Port) (q : List AttentionEntry) : List AttentionEntry :=
  q.filter (fun e => e.source != source)

/-- The checks and effects of ATTEND at its acceptance (R103, R104). -/
def attendAnswer (p : Port) (target vector : Byte) (argument : Half) (s : State) : Answer :=
  match portOf? target with
  | none => refuse s .badArgument
  | some t =>
    if t = p ∨ Config.maxVector < vector.toNat then refuse s .badArgument
    else if ¬ s.Attached t then refuse s .peerAbsent
    else if s.attention.pair p t = .pending then refuse s .busy
    else
      { state := { s with attention :=
          (s.attention.setQueue t (s.attention.queues.get t ++
            [{ source := p, vector := vector.toNat, argument }])).setPair p t .pending }
        outcome := .done }

/-- The checks and effects of ACCEPT_ATTN at its acceptance (R105). -/
def acceptAttnAnswer (p : Port) (s : State) : Answer :=
  match s.attention.queues.get p with
  | [] => refuse s .empty
  | e :: rest =>
    { state := ({ s with attention :=
        (s.attention.setQueue p rest).setPair e.source p .taken } : State).appendEvent e.source
          (.attnTaken p e.vector)
      outcome := .done
      fields := [Port.byte e.source, byteOf e.vector] ++ bigEndian e.argument }

/-- The checks and effects of WITHDRAW_ATTN at its acceptance (R107). -/
def withdrawAttnAnswer (p : Port) (target : Byte) (s : State) : Answer :=
  match portOf? target with
  | none => refuse s .badArgument
  | some t =>
    if t = p then refuse s .badArgument
    else
      match s.attention.pair p t with
      | .none => refuse s .noPending
      | .taken => { state := { s with attention := s.attention.setPair p t .none }, outcome := .alreadyTaken }
      | .pending =>
        { state := { s with attention :=
            (s.attention.setQueue t (withoutSource p (s.attention.queues.get t))).setPair p t .none }
          outcome := .done }

/-- The requests to a departing port ended, with ATTN_REFUSED to their sources (R109), and the requests it raised
removed (R110): both its pairs as target and its pairs as source become NONE. -/
def State.departAttention (s : State) (p : Port) : State :=
  let refused := (s.attention.queues.get p).foldl
    (fun s e => s.appendEvent e.source (.attnRefused p e.vector)) s
  { refused with attention :=
      { queues := PerPort.ofFn (fun t =>
          if t = p then [] else withoutSource p (s.attention.queues.get t))
        pairs := PerPort.ofFn (fun source => PerPort.ofFn (fun target =>
          if source = p ∨ target = p then .none else s.attention.pair source target)) } }

/-- ATTEND (R103, R104). -/
def execAttend (p : Port) (target vector : Byte) (argument : Half) (s : State) :
    Host.Outcome State Fault Refusal :=
  .next (s.transact p .attend ([target, vector] ++ bigEndian argument) none
    (attendAnswer p target vector argument))

/-- ACCEPT_ATTN (R105). -/
def execAcceptAttn (p : Port) (s : State) : Host.Outcome State Fault Refusal :=
  .next (s.transact p .acceptAttn [] none (acceptAttnAnswer p))

/-- WITHDRAW_ATTN (R107). -/
def execWithdrawAttn (p : Port) (target : Byte) (s : State) : Host.Outcome State Fault Refusal :=
  .next (s.transact p .withdrawAttn [target] none (withdrawAttnAnswer p target))

end Sys2Proof.Machine
end

