-- ==== Sys2Proof/Machine/ConduitTable.lean ====
section
/-! DEFINITION. The Conduit Table (chapter 2): OFFER, ANSWER, CLOSE, LEAVE, CONDUIT_INFO and the offer lapse, and
what a departure does to each slot (R45, R46, R47). -/

namespace Sys2Proof.Machine

/-- A new endpoint (R25). -/
def Endpoint.initial (p : Port) : Endpoint :=
  { port := p, answer := .pending, queue := [], holds := [], lapsed := [] }

/-- The lowest-numbered FREE slot (R31). -/
def State.freeSlot? (s : State) : Option ConduitNo := allConduits.find? (fun n => (s.channel n).isNone)

/-- The effects of an accepted OFFER on the slot it takes (R31). -/
def State.makeOffer (s : State) (n : ConduitNo) (p : Port) (members : List Port) (cls : ConduitClass)
    (window size limit : Nat) : State :=
  let generation := (s.conduit n).generation + 1
  let channel : Channel :=
    { producer := p
      producerPresent := true
      cls
      requestedWindow := window
      requestedSize := size
      holdLimit := limit
      members := members.map Endpoint.initial
      stage := .offered (s.deadlineAfter Config.offerLimit) }
  let offered : State := { s with conduits := s.conduits.set n { generation, channel := some channel } }
  offered.appendEvents members (.offerReceived n generation p window size)

/-- The checks and effects of OFFER at its acceptance (R30, R31). A passing quota check always finds a FREE slot
(R29, R115, R117); a state in which it did not is refused as over quota. -/
def offerAnswer (p : Port) (memberSet cls window : Byte) (maxSize holdLimit : Half) (s : State) : Answer :=
  if !memberSetValid p memberSet then refuse s .badArgument
  else if !(membersOf memberSet).all (fun m => decide (s.Attached m)) then refuse s .peerAbsent
  else
    match classOf? cls with
    | none => refuse s .badArgument
    | some k =>
      if !(windowValid window && sizeValid maxSize && holdLimitValid holdLimit) then refuse s .badArgument
      else if !s.conduitQuotaAllows p then refuse s .overQuota
      else
        match s.freeSlot? with
        | none => refuse s .overQuota
        | some n =>
          { state := s.makeOffer n p (membersOf memberSet) k window.toNat maxSize.toNat holdLimit.toNat
            outcome := .done
            conduit := some n
            fields := [byteOf n.val, (s.conduit n).generation + 1] }

/-- The smallest of the requested window and the members' window limits (R35). -/
def Channel.smallestWindow (ch : Channel) : Nat :=
  ch.members.foldl (fun w e => match e.answer with | .accepted l _ => min w l | .pending => w) ch.requestedWindow

/-- The smallest of the requested maximum size and the members' size limits (R35). -/
def Channel.smallestSize (ch : Channel) : Nat :=
  ch.members.foldl (fun w e => match e.answer with | .accepted _ l => min w l | .pending => w) ch.requestedSize

/-- The flow fields of a conduit that opens (R35). -/
def Channel.openingFlow (ch : Channel) : Flow :=
  { window := ch.smallestWindow
    maxSize := ch.smallestSize
    nextSequence := 0
    outstanding := 0
    windowLatch := false }

/-- An ACCEPT recorded, and the opening where no endpoint is PENDING after it (R34, R35). -/
def State.recordAccept (s : State) (n : ConduitNo) (ch : Channel) (p : Port) (window size : Nat) : State :=
  let answered := ch.updateEndpoint p (fun e => { e with answer := .accepted window size })
  if answered.members.any (fun e => e.answer == .pending) then s.setChannel n (some answered)
  else
    (s.setChannel n (some { answered with stage := .opened answered.openingFlow })).appendEvents
      (answered.producer :: answered.memberPorts)
      (.offerResolved n (s.conduit n).generation (.opened answered.smallestWindow))

/-- The checks and effects of ANSWER at its acceptance (R33 to R36). -/
def answerAnswer (p : Port) (conduit generation choice windowLimit : Byte) (sizeLimit : Half) (s : State) :
    Answer :=
  s.onConduit conduit (fun n ch =>
    if generation ≠ (s.conduit n).generation then refuse s .stale
    else
      match ch.stage with
      | .opened _ | .draining _ => refuse s .wrongState
      | .offered _ =>
        match ch.endpoint? p with
        | none => refuse s .notMember
        | some e =>
          if e.answer ≠ .pending then refuse s .wrongState
          else
            match answerChoiceOf? choice with
            | none => refuse s .badArgument
            | some .decline =>
              { state := s.failOffer n (.declined p)
                  (ch.producer :: ch.memberPorts.filter (fun m => m != p))
                outcome := .done }
            | some .accept =>
              if windowValid windowLimit && sizeValid sizeLimit then
                { state := s.recordAccept n ch p windowLimit.toNat sizeLimit.toNat, outcome := .done }
              else refuse s .badArgument)

/-- An OPEN or DRAINING conduit moved to DRAINING with its window latch clear (R39, R45). -/
def Channel.drain (ch : Channel) : Channel :=
  match ch.stage with
  | .offered _ => ch
  | .opened f | .draining f => { ch with stage := .draining { f with windowLatch := false } }

/-- The checks and effects of CLOSE at its acceptance (R38, R39). -/
def closeAnswer (p : Port) (conduit : Byte) (s : State) : Answer :=
  s.asProducer p conduit (fun n ch =>
    match ch.stage with
    | .offered _ => { state := s.failOffer n (.withdrawn p) ch.memberPorts, outcome := .done }
    | .opened _ =>
      { state := ((s.setChannel n (some ch.drain)).appendEvents ch.memberPorts
          (.producerClosed n)).drainCheck n
        outcome := .done }
    | .draining _ => refuse s .wrongState)

/-- The checks and effects of LEAVE at its acceptance (R42, R43, R44). -/
def leaveAnswer (p : Port) (conduit : Byte) (s : State) : Answer :=
  s.asMember p conduit (fun n _ _ => { state := s.removeMember n p .left, outcome := .done })

/-- The checks and reply of CONDUIT_INFO (R49). -/
def conduitInfoAnswer (conduit : Byte) (s : State) : Answer :=
  match conduitOf? conduit with
  | none => refuse s .badArgument
  | some n => { state := s, outcome := .done, fields := s.conduitRecord n }

/-- The expiry of a slot's offer deadline (R37). Where the slot is not OFFERED, or its deadline is not reached,
there is no expiry and nothing happens (R181). -/
def State.lapseOffer (s : State) (n : ConduitNo) : State :=
  match s.channel n with
  | none => s
  | some ch =>
    match ch.stage with
    | .offered d =>
      if d = s.time.counter then s.failOffer n .lapsed (ch.producer :: ch.memberPorts) else s
    | .opened _ | .draining _ => s

/-- What the departure of a port does to one slot: as its present producer (R45), else as a member (R46). -/
def State.departConduit (s : State) (p : Port) (n : ConduitNo) : State :=
  match s.channel n with
  | none => s
  | some ch =>
    if ch.presentProducer p then
      match ch.stage with
      | .offered _ => s.failOffer n (.withdrawn p) ch.memberPorts
      | .opened _ | .draining _ =>
        ((s.setChannel n (some { ch.drain with producerPresent := false })).appendEvents ch.memberPorts
          (.producerGone n)).drainCheck n
    else
      match ch.endpoint? p with
      | none => s
      | some _ =>
        match ch.stage with
        | .offered _ =>
          s.failOffer n (.memberGone p) (ch.producer :: ch.memberPorts.filter (fun m => m != p))
        | .opened _ | .draining _ => s.removeMember n p .departed

/-- The Conduit Table's share of a departure: the slots in ascending number (R47). -/
def State.departConduits (s : State) (p : Port) : State :=
  allConduits.foldl (fun s n => s.departConduit p n) s

/-- OFFER (R30, R31). -/
def execOffer (p : Port) (memberSet cls window : Byte) (maxSize holdLimit : Half) (s : State) :
    Host.Outcome State Fault Refusal :=
  .next (s.transact p .offer ([memberSet, cls, window] ++ bigEndian maxSize ++ bigEndian holdLimit) none
    (offerAnswer p memberSet cls window maxSize holdLimit))

/-- ANSWER (R33 to R36). -/
def execAnswer (p : Port) (conduit generation choice windowLimit : Byte) (sizeLimit : Half) (s : State) :
    Host.Outcome State Fault Refusal :=
  .next (s.transact p .answer ([conduit, generation, choice, windowLimit] ++ bigEndian sizeLimit)
    (conduitOf? conduit) (answerAnswer p conduit generation choice windowLimit sizeLimit))

/-- CLOSE (R38, R39). -/
def execClose (p : Port) (conduit : Byte) (s : State) : Host.Outcome State Fault Refusal :=
  .next (s.transact p .close [conduit] (conduitOf? conduit) (closeAnswer p conduit))

/-- LEAVE (R42). -/
def execLeave (p : Port) (conduit : Byte) (s : State) : Host.Outcome State Fault Refusal :=
  .next (s.transact p .leave [conduit] (conduitOf? conduit) (leaveAnswer p conduit))

/-- CONDUIT_INFO (R49, R175). -/
def execConduitInfo (p : Port) (conduit : Byte) (s : State) : Host.Outcome State Fault Refusal :=
  .next (s.transact p .conduitInfo [conduit] (conduitOf? conduit) (conduitInfoAnswer conduit))

/-- OFFER_LAPSE (R37). -/
def execOfferLapse (n : ConduitNo) (s : State) : Host.Outcome State Fault Refusal := .next (s.lapseOffer n)

end Sys2Proof.Machine
end

