-- ==== Sys2Proof/Machine/PortControl.lean ====
section
/-! DEFINITION. The port controllers (chapters 7 and 8): STATUS, ATTACH, DETACH and the departure (R136 to R144), the
port reset line (R140 to R142), the assertion of select (R148, R158), and the two framing refusals BAD_COMMAND and
TRUNCATED (R151, R152). -/

namespace Sys2Proof.Machine

/-! ### Attachment and departure -/

/-- The other ports, in ascending order. -/
def otherPorts (p : Port) : List Port := Port.all.filter (fun q => q != p)

/-- A port's event queue emptied, its counter kept (R96). -/
def State.clearEvents (s : State) (p : Port) : State :=
  { s with events := s.events.set p { s.events.get p with records := [] } }

/-- The effects of an ATTACH (R136, R137). -/
def State.attach (s : State) (p : Port) : State :=
  let joined : State :=
    { s.setPort p { s.port p with state := .attached, rotation := 23 } with
      events := s.events.set p EventQueue.initial }
  (joined.abandonProposal p).appendEvents (otherPorts p) (.peerAttached p)

/-- A departure: the port leaves ATTACHED for the state given, then the Conduit Table, the Attention Unit, the
Partition Unit and the Event Unit take their shares in the order of R144's records, and PEER_DETACHED is last
(R143, R144). -/
def State.depart (s : State) (p : Port) (cause : DepartureCause) (left : PortState) : State :=
  let gone := s.setPort p { s.port p with state := left, outcome := OutcomeRecord.initial, rotation := 23 }
  (((gone.departConduits p).departAttention p).abandonProposal p |>.clearEvents p).appendEvents
    (otherPorts p) (.peerDetached p cause)

/-- STATUS (R161). -/
def execStatus (p : Port) (s : State) : Host.Outcome State Fault Refusal :=
  .next (s.transact p .status [] none (fun s => { state := s, outcome := .done }))

/-- ATTACH (R136). -/
def execAttach (p : Port) (s : State) : Host.Outcome State Fault Refusal :=
  .next (s.transact p .attach [] none (fun s => { state := s.attach p, outcome := .done }))

/-- DETACH (R139). -/
def execDetach (p : Port) (s : State) : Host.Outcome State Fault Refusal :=
  .next (s.transact p .detach [] none (fun s => { state := s.depart p .detach .detached, outcome := .done }))

/-! ### The port reset line -/

/-- The level of a port's reset line. -/
def State.setResetLine (s : State) (p : Port) (asserted : Bool) : State :=
  s.setPort p { s.port p with resetAsserted := asserted }

/-- The outcome record of a port set to DONE and STATUS, as at every entry into HELD (R134, R140). -/
def State.resetOutcome (s : State) (p : Port) : State :=
  s.setPort p { s.port p with outcome := OutcomeRecord.initial }

/-- A port that was DETACHED enters HELD (R134, R140). -/
def State.enterHeld (s : State) (p : Port) : State :=
  s.setPort p { s.port p with state := .held, outcome := OutcomeRecord.initial, rotation := 23 }

/-- PORT_RESET_ASSERTED: the transaction in flight is aborted, and the port enters HELD, with a departure where it
was ATTACHED. A port that shows STARTING stops answering select, its transaction abandoned; a port that is HELD
otherwise is changed in nothing but the level of the line (R140, R141). -/
def execPortResetAsserted (p : Port) (s : State) : Host.Outcome State Fault Refusal :=
  .next (match (s.port p).state with
    | .attached => ((s.abort p).depart p .reset .held).setResetLine p true
    | .detached => ((s.abort p).enterHeld p).setResetLine p true
    | .held =>
      match s.shownState p with
      | some _ => ((s.endTransaction p).resetOutcome p).setResetLine p true
      | none => s.setResetLine p true)

/-- PORT_RESET_RELEASED: the port becomes DETACHED in operation, shows STARTING in the start-up interval, and stays
HELD under global reset (R142, R184). A line that is not asserted has no release. -/
def execPortResetReleased (p : Port) (s : State) : Host.Outcome State Fault Refusal :=
  .next (if (s.port p).resetAsserted then
      match s.time.reset with
      | .running => (s.setPort p { s.port p with state := .detached }).setResetLine p false
      | .startUp | .held => s.setResetLine p false
    else s)

/-! ### Select and the framing refusals -/

/-- SELECT_ASSERTED: a port that answers select begins a transaction in the command phase, its header taken now
(R148, R158); a port that ignores select begins none (R134). An assertion follows a release: a transaction whose
release was no row of its own is ended first, as at any release (notes/assumptions/4.md). -/
def execSelectAsserted (p : Port) (s : State) : Host.Outcome State Fault Refusal :=
  .next (let released := s.releaseSelect p
    match s.shownState p with
    | none => s
    | some shown =>
      released.setPort p { released.port p with
        transaction := some
          { header := released.statusHeader p shown
            phase := .command
            byteCount := 0
            replyPosition := 4
            reply := [] } })

/-- BAD_COMMAND at the completion of byte 0, whatever the port state (R151): the received code is the command of
the record, and the reply is one byte at position 4. In the arguments phase byte 0 is complete, and nothing happens. -/
def State.refuseCode (s : State) (p : Port) (code : Byte) : State :=
  match s.shownState p, (s.port p).transaction with
  | some _, some t =>
    match t.phase with
    | .arguments _ _ | .reply => s
    | .payload => s.receivePayload p [code]
    | .command =>
      s.setPort p { s.port p with
        outcome := { outcome := .badCommand, command := code, conduit := none, handle := none }
        transaction := some { t with
          phase := .reply
          byteCount := 1
          replyPosition := 4
          reply := [OutcomeCode.badCommand.byte] } }
  | _, _ => s

/-- TRUNCATED at the release of select (R152): nothing is executed, the record is written and the transaction
ends. A port with no transaction in the command phase, nor in the arguments phase of these bytes, has no such
incomplete command, and nothing happens. -/
def State.refuseTruncated (s : State) (p : Port) (code : Byte) (args : List Byte) : State :=
  match s.shownState p, (s.port p).transaction with
  | some _, some t =>
    if t.phase.continuedBy code args then s.endTruncated p code else s
  | _, _ => s

/-- BAD_COMMAND (R151). A code that names a command is no BAD_COMMAND. -/
def execBadCommand (p : Port) (code : Byte) (s : State) : Host.Outcome State Fault Refusal :=
  if (Command.ofCode? code).isNone then .next (s.refuseCode p code) else .refused .codeNamesACommand

/-- TRUNCATED (R152). A code that names no command, or one whose arguments are complete, is no TRUNCATED. -/
def execTruncated (p : Port) (code : Byte) (args : List Byte) (s : State) : Host.Outcome State Fault Refusal :=
  match Command.ofCode? code with
  | some c =>
    if args.length < c.argumentCount then .next (s.refuseTruncated p code args) else .refused .argumentsNotIncomplete
  | none => .refused .argumentsNotIncomplete

end Sys2Proof.Machine
end

