-- ==== Sys2Proof/Machine/TimeBaseUnit.lean ====
section
/-! DEFINITION. The Time Base (chapter 10): the placed deadlines and their expiries (R180, R181), the advance of the
interval counter (R179), one reference clock period (R179, R182), global reset and the start-up interval (R183,
R184). -/

namespace Sys2Proof.Machine

/-- What a placed deadline belongs to (R180). -/
inductive Expiry where
  | offer (conduit : ConduitNo)
  | proposal
  | hold (conduit : ConduitNo) (member : Port) (sequence : Half)
  deriving DecidableEq, Repr

/-- The deadlines one slot has placed: its offer's while it is OFFERED, and its holds' (R180). -/
def State.slotDeadlines (s : State) (n : ConduitNo) : List (Expiry × Tick) :=
  match s.channel n with
  | none => []
  | some ch =>
    (match ch.stage with
      | .offered d => [(.offer n, d)]
      | .opened _ | .draining _ => []) ++
    ch.members.flatMap (fun e => e.holds.filterMap (fun d =>
      d.deadline.map (fun target => (.hold n e.port d.sequence, target))))

/-- The set of placed deadlines, each with its target (R180). -/
def State.placedDeadlines (s : State) : List (Expiry × Tick) :=
  (match s.partition.proposal with
    | none => []
    | some pr => [(.proposal, pr.deadline)]) ++ allConduits.flatMap s.slotDeadlines

/-- The expiries at the advance that brought the counter to where it stands, as far as they are not taken yet. -/
def State.dueExpiries (s : State) : List Expiry :=
  (s.placedDeadlines.filter (fun d => d.2 == s.time.counter)).map (fun d => d.1)

/-- An expiry handed to its owner (R180). -/
def State.takeExpiry (s : State) : Expiry → State
  | .offer n => s.lapseOffer n
  | .proposal => s.lapseProposal
  | .hold n p q => s.lapseHold n p q

/-- The expiry a row stands for, where it is a lapse row. -/
def expiryOf? : Instr → Option Expiry
  | .offerLapse n => some (.offer n)
  | .proposalLapse => some .proposal
  | .holdLapse n p q => some (.hold n p q)
  | _ => none

/-- The expiries named by the lapse rows at the front of a queue, up to its first other row. -/
def leadingExpiries (rows : List Instr) : List Expiry :=
  (rows.takeWhile (fun i => (expiryOf? i).isSome)).filterMap expiryOf?

/-- The due expiries but for some that rows of their own take. -/
def State.dueBut (s : State) (rows : List Expiry) : List Expiry :=
  s.dueExpiries.filter (fun x => !rows.contains x)

/-- The expiry taken first among several, by the free choice (R181; notes/assumptions/6.md). -/
def pickExpiry (choices : Nat) (e : Expiry) (es : List Expiry) : Expiry :=
  (e :: es).getD (Config.expiryChoice choices % (es.length + 1)) e

/-- Up to a number of due expiries taken one by one, but for those that rows take. One alone is taken as it is; among
several the free choice says which is first. -/
def State.takeDue (rows : List Expiry) : Nat → State → State
  | 0, s => s
  | k + 1, s =>
    match s.dueBut rows with
    | [] => s
    | [e] => State.takeDue rows k (s.takeExpiry e)
    | e :: es => State.takeDue rows k ({ s with choices := s.choices + 1 }.takeExpiry (pickExpiry s.choices e es))

/-- Every due expiry taken, each whole, but for those that rows take (R181). -/
def State.expireDueBut (s : State) (rows : List Expiry) : State := State.takeDue rows (s.dueBut rows).length s

/-- Every due expiry taken (R181). -/
def State.expireDue (s : State) : State := s.expireDueBut []

/-- The end of the start-up interval at the first advance: the counter goes from 0 to 1, and each port whose reset
line is released becomes DETACHED with the outcome record and the transaction it has (R165, R184). -/
def State.endStartUp (s : State) : State :=
  { s with
    ports := s.ports.map (fun c => if c.resetAsserted then c else { c with state := .detached })
    time := { counter := s.time.counter + 1, divider := 0, reset := .running } }

/-- The counter at an advance: held at 0 under global reset, from 0 to 1 at the end of the start-up interval, and up by
one in operation, where 4,294,967,295 is followed by 0; the division period begins again (R179, R184). -/
def State.countAdvance (s : State) : State :=
  match s.time.reset with
  | .held => s
  | .startUp => s.endStartUp
  | .running => { s with time := { s.time with counter := s.time.counter + 1, divider := 0 } }

/-- One advance of the interval counter, with the deadlines it reaches: each expires and leaves the set in the act of
the advance (R180, R181). An expiry whose lapse row stands directly behind the advance in the queue is left to that
row, ahead of everything else, so that the sender can order them; an expiry that an advance before this one left is
taken first (notes/assumptions/5.md). -/
def State.advance (s : State) : State :=
  match s.time.reset with
  | .held | .startUp => s.countAdvance
  | .running => s.expireDue.countAdvance.expireDueBut (leadingExpiries s.pending)

/-- One period of the reference clock, while no step waits (notes/assumptions/2.md): the divider counts it, and at
the 8000th the counter advances and the expiries of that advance are taken (R179, R180). -/
def State.referencePeriod (s : State) : State :=
  match s.time.reset with
  | .held => s
  | .startUp | .running =>
    let e := s.expireDue
    if e.time.divider + 1 < Config.periodsPerInterval then
      { e with time := { e.time with divider := e.time.divider + 1 } }
    else e.countAdvance.expireDue

/-- The power-on values of every block, the reset lines at their levels (R183). -/
def State.globalReset (s : State) : State :=
  { State.reset with
    ports := s.ports.map (fun c => PortController.initial c.resetAsserted)
    choices := s.choices
    pending := s.pending }

/-- INTERVAL_ADVANCE (R179, R180, R181). -/
def execIntervalAdvance (s : State) : Host.Outcome State Fault Refusal := .next s.advance

/-- END_OF_START_UP: the first advance (R184). Outside the start-up interval it has ended already, or has not begun,
and nothing happens. -/
def execEndOfStartUp (s : State) : Host.Outcome State Fault Refusal :=
  .next (if s.time.reset = .startUp then s.endStartUp else s)

/-- GLOBAL_RESET_ASSERTED (R183). -/
def execGlobalResetAsserted (s : State) : Host.Outcome State Fault Refusal := .next s.globalReset

/-- GLOBAL_RESET_RELEASED: the start-up interval begins (R183, R184). A global reset that is not held has no
release. -/
def execGlobalResetReleased (s : State) : Host.Outcome State Fault Refusal :=
  .next (if s.time.reset = .held then { s with time := { s.time with reset := .startUp } } else s)

end Sys2Proof.Machine
end

