-- ==== Sys2Proof/Machine/Dispatch.lean ====
section
/-! DEFINITION. exec: one arm for each row of spec/opcode_table.json, each one call of its meaning. -/

namespace Sys2Proof.Machine

def exec (i : Instr) (s : State) : Host.Outcome State Fault Refusal :=
  match i with
  | .status p => Sys2Proof.Machine.execStatus p s
  | .attach p => Sys2Proof.Machine.execAttach p s
  | .detach p => Sys2Proof.Machine.execDetach p s
  | .nextEvent p => Sys2Proof.Machine.execNextEvent p s
  | .offer p ms cl w sz hl => Sys2Proof.Machine.execOffer p ms cl w sz hl s
  | .answer p c g ch wl sl => Sys2Proof.Machine.execAnswer p c g ch wl sl s
  | .close p c => Sys2Proof.Machine.execClose p c s
  | .leave p c => Sys2Proof.Machine.execLeave p c s
  | .flush p c => Sys2Proof.Machine.execFlush p c s
  | .conduitInfo p c => Sys2Proof.Machine.execConduitInfo p c s
  | .post p c len => Sys2Proof.Machine.execPost p c len s
  | .take p c => Sys2Proof.Machine.execTake p c s
  | .takeAny p => Sys2Proof.Machine.execTakeAny p s
  | .peek p c => Sys2Proof.Machine.execPeek p c s
  | .readHeld p c q => Sys2Proof.Machine.execReadHeld p c q s
  | .release p c q => Sys2Proof.Machine.execRelease p c q s
  | .attend p t v a => Sys2Proof.Machine.execAttend p t v a s
  | .acceptAttn p => Sys2Proof.Machine.execAcceptAttn p s
  | .withdrawAttn p t => Sys2Proof.Machine.execWithdrawAttn p t s
  | .propose p q => Sys2Proof.Machine.execPropose p q s
  | .vote p n ch => Sys2Proof.Machine.execVote p n ch s
  | .cancelProposal p n => Sys2Proof.Machine.execCancelProposal p n s
  | .readPartition p => Sys2Proof.Machine.execReadPartition p s
  | .poolInfo p => Sys2Proof.Machine.execPoolInfo p s
  | .segmentInfo p h => Sys2Proof.Machine.execSegmentInfo p h s
  | .badCommand p code => Sys2Proof.Machine.execBadCommand p code s
  | .truncated p code args => Sys2Proof.Machine.execTruncated p code args s
  | .fillCompletion p bytes => Sys2Proof.Machine.execFillCompletion p bytes s
  | .transferEnd p => Sys2Proof.Machine.execTransferEnd p s
  | .portResetAsserted p => Sys2Proof.Machine.execPortResetAsserted p s
  | .portResetReleased p => Sys2Proof.Machine.execPortResetReleased p s
  | .globalResetAsserted => Sys2Proof.Machine.execGlobalResetAsserted s
  | .globalResetReleased => Sys2Proof.Machine.execGlobalResetReleased s
  | .intervalAdvance => Sys2Proof.Machine.execIntervalAdvance s
  | .endOfStartUp => Sys2Proof.Machine.execEndOfStartUp s
  | .offerLapse n => Sys2Proof.Machine.execOfferLapse n s
  | .proposalLapse => Sys2Proof.Machine.execProposalLapse s
  | .holdLapse n p q => Sys2Proof.Machine.execHoldLapse n p q s
  | .selectAsserted p => Sys2Proof.Machine.execSelectAsserted p s

end Sys2Proof.Machine
end

