-- ==== Sys2Proof/Machine/Step.lean ====
section
/-! DEFINITION. One step of the part: the occurrence at the front of the queue, or one period of the reference clock
while none waits. -/

namespace Sys2Proof.Machine

/-- One step: the step at the front of the queue, run with the queue's rest; on an empty queue, one reference clock
period (notes/assumptions/2.md). -/
def step (s : State) : Host.Outcome State Fault Refusal :=
  match s.pending with
  | [] => .next s.referencePeriod
  | i :: rest => exec i { s with pending := rest }

/-- The state with the command that a word spells put at the front of its queue, unchanged where it spells none. -/
def State.withFetchWord (s : State) (nbits w : Nat) : State :=
  match decodeTableWord nbits w with
  | none => s
  | some i => { s with pending := i :: s.pending }

end Sys2Proof.Machine
end

