-- ==== Sys2Proof/Machine/Shifting.lean ====
section
/-! DEFINITION. A command frame as the host shifts it in, one complete byte at a time, with the arguments phase between
byte 0 and the acceptance instant (R148, R149, R150). A row of the table is the acceptance itself; the statements say
that it is where the bytes lead (notes/assumptions/3.md). -/

namespace Sys2Proof.Machine

/-- The state a row leaves; the state as it is where the row has none. -/
def State.afterRow (s : State) (i : Instr) : State :=
  match exec i s with
  | .next t => t
  | .fault _ | .refused _ => s

/-- The frame bytes received so far, the last of them just now: arguments still missing put the transaction in the
arguments phase with its count of complete bytes, and otherwise they are the row they spell (R148, R150, R151). -/
def State.frameReceived (s : State) (p : Port) (t : Transaction) (bytes : List Byte) : State :=
  match Instr.ofInput p bytes with
  | none => s
  | some (.truncated _ code args) =>
    s.setPort p { s.port p with
      transaction := some { t with phase := .arguments code args, byteCount := bytes.length } }
  | some i => s.afterRow i

/-- One complete input byte on a port (R148, R149). A port that ignores select or carries no transaction does not see
it; in the reply phase it is ignored (R157), and in the payload phase it is payload (R162). -/
def State.shiftIn (s : State) (p : Port) (b : Byte) : State :=
  match s.shownState p, (s.port p).transaction with
  | some _, some t =>
    match t.phase with
    | .command => s.frameReceived p t [b]
    | .arguments code received => s.frameReceived p t (code :: received ++ [b])
    | .reply => s
    | .payload => s.receivePayload p [b]
  | _, _ => s

/-- Several complete input bytes in turn. -/
def State.shiftInAll (s : State) (p : Port) (bytes : List Byte) : State := bytes.foldl (fun s b => s.shiftIn p b) s

end Sys2Proof.Machine
end

