-- ==== Sys2Proof/WellFormed.lean ====
section
/-! DEFINITION. Which terms of Instr are occurrences at all. Every argument value a host can shift in is
well-formed (out-of-range values are the commands' own checks, R150); a BAD_COMMAND whose code names a command,
and a TRUNCATED whose code names none or whose arguments are complete, are not that event. -/

namespace Sys2Proof

/-- The code names no command, as BAD_COMMAND requires (R151). -/
def unknownCode (code : Byte) : Bool := (Command.ofCode? code).isNone

/-- The code names a command with more argument bytes than were received, as TRUNCATED requires (R152). -/
def argumentsIncomplete (code : Byte) (args : List Byte) : Bool :=
  match Command.ofCode? code with
  | some c => decide (args.length < c.argumentCount)
  | none => false

/-- The term stands for an occurrence the part can meet. -/
def Instr.wellFormed : Instr → Bool
  | .badCommand _ code => unknownCode code
  | .truncated _ code args => argumentsIncomplete code args
  | .status _ | .attach _ | .detach _ | .nextEvent _ | .offer _ _ _ _ _ _ | .answer _ _ _ _ _ _
  | .close _ _ | .leave _ _ | .flush _ _ | .conduitInfo _ _ | .post _ _ _ | .take _ _ | .takeAny _
  | .peek _ _ | .readHeld _ _ _ | .release _ _ _ | .attend _ _ _ _ | .acceptAttn _ | .withdrawAttn _ _
  | .propose _ _ | .vote _ _ _ | .cancelProposal _ _ | .readPartition _ | .poolInfo _ | .segmentInfo _ _
  | .fillCompletion _ _ | .transferEnd _ | .portResetAsserted _ | .portResetReleased _
  | .globalResetAsserted | .globalResetReleased | .intervalAdvance | .endOfStartUp | .offerLapse _
  | .proposalLapse | .holdLapse _ _ _ | .selectAsserted _ => true

end Sys2Proof
end

