-- ==== Sys2Proof/Safety.lean ====
section
/-! DEFINITION. The words the statements use: a port that awaits a command, the port controller after a reply, the
records a port hears, what a member's removal and a departure leave; and the laws of the part, each a property of every state the rules can reach. -/

namespace Sys2Proof.Machine

/-! ### Commands and replies -/

/-- The port answers select, shows this state, and its transaction is in the command phase: a command frame whose
last byte completes now is taken now (R148, R153). -/
def State.Awaits (s : State) (p : Port) (shown : ShownState) : Prop :=
  s.shownState p = some shown ∧ ∃ t, (s.port p).transaction = some t ∧ t.phase = .command

/-- A controller whose transaction is in the reply phase of a command, with these reply bytes from the reply
position on (R148, R156); its header stays as it was taken. -/
def PortController.replying (c : PortController) (cmd : Command) (reply : List Byte) : PortController :=
  { c with
    transaction := c.transaction.map (fun t =>
      { t with
        phase := .reply
        byteCount := 1 + cmd.argumentCount
        replyPosition := cmd.replyPosition
        reply }) }

/-- A controller that has written its outcome record and replies with the outcome and these fields (R159, R160). -/
def PortController.replied (c : PortController) (cmd : Command) (outcome : OutcomeCode)
    (conduit : Option ConduitNo) (handle : Option Handle) (fields : List Byte) : PortController :=
  { c.replying cmd (outcome.byte :: fields) with
    outcome := { outcome, command := cmd.code, conduit, handle } }

/-- The state in which one port has written its outcome record and replies. -/
def State.replied (s : State) (p : Port) (cmd : Command) (outcome : OutcomeCode) (conduit : Option ConduitNo)
    (handle : Option Handle) (fields : List Byte) : State :=
  s.setPort p ((s.port p).replied cmd outcome conduit handle fields)

/-- The commands whose first argument is a conduit number (R27). -/
def namesConduit : Command → Bool
  | .answer | .close | .leave | .flush | .conduitInfo | .post | .take | .peek | .readHeld | .release => true
  | .status | .attach | .detach | .nextEvent | .offer | .takeAny | .attend | .acceptAttn | .withdrawAttn
  | .propose | .vote | .cancelProposal | .readPartition | .poolInfo | .segmentInfo => false

/-- The conduit field the arguments of a command give its outcome record (R159). -/
def namedConduit (c : Command) (args : List Byte) : Option ConduitNo :=
  if namesConduit c = true then args.head?.bind conduitOf? else none

/-- The event queue of a port after these records are addressed to it in turn (R84, R96). -/
def State.hears (s : State) (p : Port) (es : List Event) : EventQueue :=
  if s.Attached p then es.foldl EventQueue.push (s.events.get p) else s.events.get p

/-- Every event queue after these records are addressed to each port in turn. -/
def State.heard (s : State) (f : Port → List Event) : PerPort EventQueue :=
  PerPort.ofFn (fun p => s.hears p (f p))

/-- The slots with the current use of one replaced, its generation kept (R26). -/
def State.withUse (s : State) (n : ConduitNo) (ch : Option Channel) : Vector Conduit 24 :=
  s.conduits.set n { generation := (s.conduit n).generation, channel := ch }

/-- The checks of a member's command on a slot in use (R28, with the state check that R42, R67, R73, R74 and R78 place
behind it): NOT_MEMBER for a port with no endpoint there, and WRONG_STATE for a member of an OFFERED conduit. -/
def State.ChecksMember (s : State) (p : Port) (b : Byte) (cmd : Command) (i : Instr) : Prop :=
  ∀ (n : ConduitNo) (ch : Channel), b.toNat = n.val → s.channel n = some ch →
    (p ∉ ch.memberPorts → exec i s = .next (s.replied p cmd .notMember (some n) none [])) ∧
    (p ∈ ch.memberPorts → ∀ d, ch.stage = .offered d →
      exec i s = .next (s.replied p cmd .wrongState (some n) none []))

/-- From a position on, a port shifts out a segment's payload bytes 0 to its length less one, and zeros behind them
(R2, R163). -/
def State.ShiftsPayload (s : State) (p : Port) (position : Nat) (g : Segment) : Prop :=
  ∀ k, (k < g.length → s.shiftedOut p (position + k) = g.payload[k]?) ∧
    (g.length ≤ k → s.shiftedOut p (position + k) = some 0)

/-! ### References taken away -/

/-- A descriptor with this many queue and hold references fewer: none where a LIVE one is left without a reference, and
so is freed (R14). A FILLING one has none to lose. -/
def Segment.less (g : Segment) (queue hold : Nat) : Option Segment :=
  match g.stage with
  | .filling => some g
  | .live q r =>
    if (r.queue - queue) + (r.hold - hold) + r.transfer = 0 then none
    else some { g with
      stage := .live q { queue := r.queue - queue, hold := r.hold - hold, transfer := r.transfer } }

/-- A descriptor whose conduit field is absent once its slot has ended (R18). -/
def Segment.detachedFrom (g : Segment) (ended : ConduitNo → Bool) : Segment :=
  if g.conduit.any ended = true then { g with conduit := none } else g

/-- The holds of an endpoint that name a descriptor. -/
def Endpoint.holdsOf (e : Endpoint) (h : Handle) : Nat := e.holds.countP (fun d => d.handle == h)

/-- How many descriptors are freed where each loses this many queue and hold references. -/
def State.freedBy (s : State) (queue hold : Handle → Nat) : Nat :=
  allHandles.countP (fun h => (s.segment h).any (fun g => (g.less (queue h) (hold h)).isNone))

/-- A set latch clears as this many freeings bring outstanding below the window (R62). -/
def Flow.reopens (f : Flow) (freed : Nat) : Bool :=
  f.windowLatch && decide (1 ≤ freed) && decide (f.outstanding - freed < f.window)

/-- The flow fields after this many freeing notices (R17, R62). -/
def Flow.afterFreeing (f : Flow) (freed : Nat) : Flow :=
  { f with outstanding := f.outstanding - freed, windowLatch := f.windowLatch && !f.reopens freed }

/-! ### A member removed -/

/-- The conduit ends with this member's removal: it is the last (R44), or the conduit is DRAINING and the others queue
and hold nothing (R41, R43). -/
def Channel.endsWithout (ch : Channel) (p : Port) : Bool :=
  match ch.stage with
  | .draining _ => ch.members.all (fun e => e.port == p || (e.queue.isEmpty && e.holds.isEmpty))
  | .offered _ | .opened _ => ch.members.all (fun e => e.port == p)

/-- How many descriptors are freed as an endpoint's queue entries and holds go. -/
def State.freedWith (s : State) (e : Endpoint) : Nat := s.freedBy (fun h => e.queue.count h) e.holdsOf

/-- The slot's use after the removal of a member (R43, R44). -/
def State.useWithout (s : State) (ch : Channel) (e : Endpoint) : Option Channel :=
  if ch.endsWithout e.port = true then none
  else some { ch with
    members := ch.members.filter (fun x => x.port != e.port)
    stage := ch.stage.mapFlow (fun f => f.afterFreeing (s.freedWith e)) }

/-- The records one port hears of the removal of a member (R43, R44): the present producer CONSUMER_GONE, the producer
WINDOW_OPEN where the removal reopens the window, and the present producer and the members that remain CONDUIT_ENDED
where the conduit ends, with NO_CONSUMERS after the last member and DRAINED otherwise. -/
def State.removalRecords (s : State) (n : ConduitNo) (ch : Channel) (f : Flow) (e : Endpoint) (reason : GoneReason)
    (q : Port) : List Event :=
  (if q = ch.producer ∧ ch.producerPresent = true then [.consumerGone n e.port reason] else []) ++
  (if q = ch.producer ∧ f.reopens (s.freedWith e) = true then [.windowOpen n] else []) ++
  (if ch.endsWithout e.port = true ∧
      (q = ch.producer ∧ ch.producerPresent = true ∨ q ∈ ch.memberPorts ∧ q ≠ e.port) then
    [.conduitEnded n (s.conduit n).generation
      (if ch.members.all (fun x => x.port == e.port) then .noConsumers else .drained)]
  else [])

/-! ### Port controllers -/

/-- The law of the port controllers: a port is HELD while its reset line is asserted and until the part is in
operation, and only then (R133, R142, R184); a port that ignores select carries no transaction (R134); a port
that is not ATTACHED has its rotation point at 23 (R72) and neither a fill nor a transfer; a record that names a
transfer outlasts no transaction (R163); and the record of a payload phase is that of an accepted POST (R148, R162). -/
structure PortLaw (s : State) : Prop where
  heldByReset : ∀ p, (s.port p).resetAsserted = true → (s.port p).state = .held
  heldBeforeOperation : s.time.reset ≠ .running → ∀ p, (s.port p).state = .held
  heldOnlyByReset : s.time.reset = .running → ∀ p, (s.port p).state = .held → (s.port p).resetAsserted = true
  silentWhileIgnored : ∀ p, s.shownState p = none → (s.port p).transaction = none
  rotationRests : ∀ p, ¬ s.Attached p → (s.port p).rotation = 23
  idleWhileDetached : ∀ p, ¬ s.Attached p → s.fillHandle? p = none ∧ s.transferHandle? p = none
  readEnds : ∀ p, (s.port p).outcome.isRead = true → s.transferHandle? p = none →
    (s.port p).outcome.handle = none
  fillsArePosts : ∀ p x, (s.port p).transaction = some x → x.phase = .payload →
    (s.port p).outcome.outcome = .done ∧ (s.port p).outcome.command = Command.post.code

/-! ### Event Unit -/

/-- The law of one event queue (R83, R85, R88): at most 32 records, at most 31 of them ordinary, OVERFLOW only the
youngest with a lost count from 1 to 65535, and numbers that rise by one to the counter. -/
structure QueueLaw (q : EventQueue) : Prop where
  atMost32 : q.records.length ≤ 32
  atMost31Ordinary : q.records.countP (fun r => !r.event.isOverflow) ≤ 31
  overflowIsYoungest : ∀ r ∈ q.records.dropLast, r.event.isOverflow = false
  lostInRange : ∀ r ∈ q.records, ∀ lost, r.event = .overflow lost → 1 ≤ lost ∧ lost ≤ 65535
  numbered : ∀ (i : Nat) (h : i < q.records.length),
    (q.records[i]).number = q.counter - BitVec.ofNat 8 (q.records.length - i)

/-- The law of the Event Unit: every queue keeps the queue law, and a port that is not ATTACHED has an empty one
(R96). -/
structure EventLaw (s : State) : Prop where
  queues : ∀ p, QueueLaw (s.events.get p)
  unattached : ∀ p, ¬ s.Attached p → (s.events.get p).records = []

/-! ### Attention Unit -/

/-- The law of the Attention Unit (R101, R102): a queue holds at most one entry from each source, a pair is PENDING
exactly when the target's queue holds an entry from the source, vectors are 0 to 63, no port pairs with itself, and
every pair that names a port which is not ATTACHED is NONE. -/
structure AttentionLaw (s : State) : Prop where
  oneEach : ∀ t, ((s.attention.queues.get t).map (fun e => e.source)).Nodup
  pendingIsQueued : ∀ p t, s.attention.pair p t = .pending ↔
    ∃ e ∈ s.attention.queues.get t, e.source = p
  vectors : ∀ t, ∀ e ∈ s.attention.queues.get t, e.vector ≤ 63
  noneWithItself : ∀ p, s.attention.pair p p = .none
  unattached : ∀ p, ¬ s.Attached p → ∀ q, s.attention.pair p q = .none ∧ s.attention.pair q p = .none

/-! ### Partition Unit -/

/-- The law of the Partition Unit (R115, R118, R119): the active quotas sum to at most 512, 256 and 24; the pending
proposal's do too, its id is the counter's value and not 0, its proposer has accepted, some voter has not voted,
and its voters are the ATTACHED ports. -/
structure PartitionLaw (s : State) : Prop where
  activeSums : (s.partition.quotas.map Quota.blocks).sum ≤ 512 ∧
    (s.partition.quotas.map Quota.descriptors).sum ≤ 256 ∧ (s.partition.quotas.map Quota.conduits).sum ≤ 24
  proposal : ∀ pr, s.partition.proposal = some pr →
    ((pr.quotas.map Quota.blocks).sum ≤ 512 ∧ (pr.quotas.map Quota.descriptors).sum ≤ 256 ∧
      (pr.quotas.map Quota.conduits).sum ≤ 24) ∧
    pr.id = s.partition.idCounter ∧ pr.id ≠ 0 ∧ pr.votes.get pr.proposer = .accept ∧
    (∃ v, pr.votes.get v = .pending) ∧ ∀ v, pr.votes.get v ≠ .none ↔ s.Attached v

/-! ### Segment Pool -/

/-- The descriptors outside FREE that a port produced: its charged descriptors by R6. -/
def State.producedBy (s : State) (p : Port) : List Segment :=
  s.pool.descriptors.toList.filterMap (fun d => d.filter (fun g => g.producer == p))

/-- The law of the pool's accounts (R5, R6, R115 with R117): the free-descriptor list holds the FREE descriptors once
each; free blocks and charged blocks make 512; charges count what a port produced; and no charge exceeds the
quota the port has. -/
structure AccountingLaw (s : State) : Prop where
  freeOnce : s.pool.freeList.Nodup
  freeListed : ∀ h, h ∈ s.pool.freeList ↔ s.segment h = none
  blocksTotal : s.pool.freeBlocks + s.pool.chargedBlocks.sum = 512
  blocksCharged : ∀ p, s.pool.chargedBlocks.get p = ((s.producedBy p).map (fun g => blockCount g.length)).sum
  descriptorsCharged : ∀ p, s.pool.chargedDescriptors.get p = (s.producedBy p).length
  withinQuota : ∀ p, s.pool.chargedBlocks.get p ≤ (s.partition.quotas.get p).blocks ∧
    s.pool.chargedDescriptors.get p ≤ (s.partition.quotas.get p).descriptors ∧
    s.chargedConduits p ≤ (s.partition.quotas.get p).conduits

/-- The law of the payload (R2, R53, R162): a LIVE segment holds as many payload bytes as its length, and a fill as many
as its transaction has received, up to the length. -/
structure PayloadLaw (s : State) : Prop where
  live : ∀ h g q r, s.segment h = some g → g.stage = .live q r → g.payload.length = g.length
  filling : ∀ p h g x, s.fillHandle? p = some h → s.segment h = some g → (s.port p).transaction = some x →
    4 ≤ x.byteCount ∧ g.payload.length = min x.payloadCount g.length

/-! ### Conduit Table -/

/-- The law of one slot in use (R24, R25, R28, R41, R75): one to three members in ascending port order, the producer
not among them, all of them ATTACHED; what each conduit state allows; at most 4 holds and 4 lapsed sequences; and
the effective values in range. -/
structure ChannelLaw (s : State) (ch : Channel) : Prop where
  members : 1 ≤ ch.members.length ∧ (ch.memberPorts.map Port.toNat).Pairwise (· < ·)
  producerApart : ch.producer ∉ ch.memberPorts
  membersAttached : ∀ m ∈ ch.memberPorts, s.Attached m
  producerAttached : ch.producerPresent = true → s.Attached ch.producer
  requested : 1 ≤ ch.requestedWindow ∧ ch.requestedWindow ≤ 16 ∧ 1 ≤ ch.requestedSize ∧
    ch.requestedSize ≤ 1024 ∧ ch.holdLimit ≤ 1000
  limits : ∀ e ∈ ch.members, ∀ w z, e.answer = .accepted w z → 1 ≤ w ∧ w ≤ 16 ∧ 1 ≤ z ∧ z ≤ 1024
  offered : ∀ d, ch.stage = .offered d → ch.producerPresent = true ∧
    (∃ e ∈ ch.members, e.answer = .pending) ∧
    ∀ e ∈ ch.members, e.queue = [] ∧ e.holds = [] ∧ e.lapsed = []
  answered : (∀ d, ch.stage ≠ .offered d) → ∀ e ∈ ch.members, e.answer ≠ .pending
  openPresent : ∀ f, ch.stage = .opened f → ch.producerPresent = true
  drainingUndrained : ∀ f, ch.stage = .draining f → ch.drained = false
  kept : ∀ e ∈ ch.members, e.holds.length ≤ 4 ∧ e.lapsed.length ≤ 4
  effective : ∀ f, ch.stage.flow? = some f → 1 ≤ f.window ∧ f.window ≤ 16 ∧ 1 ≤ f.maxSize ∧ f.maxSize ≤ 1024

/-- Every slot in use keeps the channel law. -/
def ConduitLaw (s : State) : Prop := ∀ n ch, s.channel n = some ch → ChannelLaw s ch

/-! ### Windows -/

/-- How many FILLING and LIVE descriptors name a conduit (R60). -/
def State.naming (s : State) (n : ConduitNo) : Nat :=
  s.pool.descriptors.toList.countP (fun d => d.any (fun g => g.conduit == some n))

/-- The law of the windows and the sequences (R17, R58, R60, R61, R62): outstanding counts the descriptors that name
the conduit and is within the window; no descriptor names a slot that is FREE or OFFERED; a set latch means that the
conduit is OPEN with outstanding at its window; no two LIVE descriptors that name one conduit carry one sequence; and
a fill in flight is its producer's, with a next sequence that none of them carries. -/
structure WindowLaw (s : State) : Prop where
  unnamed : ∀ n, (∀ ch, s.channel n = some ch → ch.stage.flow? = none) → s.naming n = 0
  counted : ∀ n ch f, s.channel n = some ch → ch.stage.flow? = some f →
    f.outstanding = s.naming n ∧ f.outstanding ≤ f.window
  latched : ∀ n ch f, s.channel n = some ch → ch.stage.flow? = some f → f.windowLatch = true →
    ch.stage = .opened f ∧ f.outstanding = f.window
  sequencesApart : ∀ n h k g g' q r r', s.segment h = some g → s.segment k = some g' → g.conduit = some n →
    g'.conduit = some n → g.stage = .live q r → g'.stage = .live q r' → h = k
  fillsAreFresh : ∀ n ch f h g, s.channel n = some ch → ch.stage.flow? = some f → s.segment h = some g →
    g.conduit = some n → g.stage = .filling →
    g.producer = ch.producer ∧ s.sequenceInUse n f.nextSequence = false

/-! ### References -/

/-- The endpoints of every slot in use. -/
def State.endpoints (s : State) : List Endpoint :=
  s.conduits.toList.flatMap (fun c => match c.channel with | some ch => ch.members | none => [])

/-- The delivery queue entries that name a descriptor (R12). -/
def State.queueEntries (s : State) (h : Handle) : Nat := (s.endpoints.map (fun e => e.queue.count h)).sum

/-- The holds that name a descriptor (R12). -/
def State.holdEntries (s : State) (h : Handle) : Nat :=
  (s.endpoints.map (fun e => e.holds.countP (fun d => d.handle == h))).sum

/-- The transfers in flight that name a descriptor (R12). -/
def State.transfersOf (s : State) (h : Handle) : Nat := Port.all.countP (fun p => s.transferHandle? p == some h)

/-- The law of the references (R12, R14, R15): a LIVE descriptor's tallies count the queue entries, the holds and the
transfers that name it, and it has at least one; what is not LIVE has none; what an endpoint queues or holds names
its conduit, and a hold carries its segment's sequence; and each FILLING descriptor is the fill of one transaction
of its producer. -/
structure ReferenceLaw (s : State) : Prop where
  live : ∀ h g q r, s.segment h = some g → g.stage = .live q r →
    r.queue = s.queueEntries h ∧ r.hold = s.holdEntries h ∧ r.transfer = s.transfersOf h ∧ 1 ≤ r.total
  others : ∀ h, (∀ g q r, s.segment h = some g → g.stage ≠ .live q r) →
    s.queueEntries h = 0 ∧ s.holdEntries h = 0 ∧ s.transfersOf h = 0
  queued : ∀ n ch e h, s.channel n = some ch → e ∈ ch.members → h ∈ e.queue →
    ∃ g, s.segment h = some g ∧ g.conduit = some n
  held : ∀ n ch e d, s.channel n = some ch → e ∈ ch.members → d ∈ e.holds →
    ∃ g r, s.segment d.handle = some g ∧ g.conduit = some n ∧ g.stage = .live d.sequence r
  filling : ∀ h g, s.segment h = some g → g.stage = .filling → s.fillHandle? g.producer = some h
  filled : ∀ p h, s.fillHandle? p = some h → ∃ g, s.segment h = some g ∧ g.stage = .filling ∧ g.producer = p

/-- The law of an endpoint's entries (R63, R75): a handle stands at most once among its queue entries and holds, and no
two of its holds carry one sequence. -/
def EntryLaw (s : State) : Prop := ∀ n ch, s.channel n = some ch → ∀ e ∈ ch.members,
  (e.queue ++ e.holds.map (fun d => d.handle)).Nodup ∧ (e.holds.map (fun d => d.sequence)).Nodup

/-! ### Deadlines -/

/-- The limit in milliseconds of the deadline of an owner (R32, R75, R124). -/
def State.limitOf (s : State) : Expiry → Nat
  | .offer _ => 100
  | .proposal => 250
  | .hold n _ _ => match s.channel n with | some ch => ch.holdLimit | none => 0

/-- The law of the placed deadlines (R180): none is further away than the advances its limit gives it, so none
outlasts them. -/
def DeadlineLaw (s : State) : Prop := ∀ d ∈ s.placedDeadlines, s.timeRemaining d.2 ≤ s.limitOf d.1 + 1

/-- The time remaining of a placed deadline is never 0 (R180), but for one whose lapse row is next in the queue, with no
command ahead of it (notes/assumptions/5.md). -/
def PromptLaw (s : State) : Prop := ∀ d ∈ s.placedDeadlines,
  1 ≤ s.timeRemaining d.2 ∨ d.1 ∈ leadingExpiries s.pending

/-! ### Departures -/

/-- What the departure of a port leaves of the use of a slot. As its present producer (R45): an offer ends, and an OPEN
or DRAINING conduit goes on DRAINING without a producer and with its latch clear, or ends where nothing is queued or
held. As a member (R46): an offer ends, and of an OPEN or DRAINING conduit the member is removed. -/
def State.departedUse (s : State) (p : Port) (n : ConduitNo) : Option Channel :=
  match s.channel n with
  | none => none
  | some ch =>
    if ch.presentProducer p then
      match ch.stage with
      | .offered _ => none
      | .opened f | .draining f =>
        if ch.drained then none
        else some { ch with producerPresent := false, stage := .draining { f with windowLatch := false } }
    else
      match ch.endpoint? p with
      | none => some ch
      | some e =>
        match ch.stage with
        | .offered _ => none
        | .opened _ | .draining _ => s.useWithout ch e

/-- The records another port hears of one slot in the departure of a port (R45, R46). -/
def State.departureRecords (s : State) (p : Port) (n : ConduitNo) (q : Port) : List Event :=
  match s.channel n with
  | none => []
  | some ch =>
    if ch.presentProducer p then
      if q ∈ ch.memberPorts then
        match ch.stage with
        | .offered _ => [.offerResolved n (s.conduit n).generation (.withdrawn p)]
        | .opened _ | .draining _ =>
          [.producerGone n] ++ if ch.drained then [.conduitEnded n (s.conduit n).generation .drained] else []
      else []
    else
      match ch.endpoint? p with
      | none => []
      | some e =>
        match ch.stage with
        | .offered _ =>
          if q = ch.producer ∨ q ∈ ch.memberPorts then
            [.offerResolved n (s.conduit n).generation (.memberGone p)]
          else []
        | .opened f | .draining f => s.removalRecords n ch f e .departed q

/-- What a departure with this cause leaves of a port (R45, R46, R96, R109, R110, R129, R143, R144): no endpoint and no
conduit it is the present producer of, each slot as R45 and R46 leave it and those it took no part in as they were;
each descriptor without the references the port's endpoints had, FREE where that was the last, and without its conduit
where the slot has ended; an empty event queue; no attention entry and no pair but NONE, with the other ports' as they
were; no pending proposal; and for every other ATTACHED port, in this order, the records of the slots in ascending
number, ATTN_REFUSED for its request, PARTITION_RESOLVED where it has a vote, and PEER_DETACHED. -/
structure DepartedTo (s t : State) (p : Port) (cause : DepartureCause) : Prop where
  outOfConduits : ∀ n ch, t.channel n = some ch → ch.presentProducer p = false ∧ p ∉ ch.memberPorts
  otherSlots : ∀ n, (∀ ch, s.channel n = some ch → ch.presentProducer p = false ∧ p ∉ ch.memberPorts) →
    t.conduit n = s.conduit n
  slots : ∀ n, t.conduit n = { generation := (s.conduit n).generation, channel := s.departedUse p n }
  segments : ∀ h, t.segment h =
    ((s.segment h).bind (fun g => g.less
      ((s.endpoints.filter (fun e => e.port == p)).map (fun e => e.queue.count h)).sum
      ((s.endpoints.filter (fun e => e.port == p)).map (fun e => e.holdsOf h)).sum)).map
    (fun g => g.detachedFrom (fun n => (s.channel n).isSome && (s.departedUse p n).isNone))
  accounts : AccountingLaw s → AccountingLaw t
  freedBehind : s.pool.freeList <+: t.pool.freeList
  noRecords : t.events.get p = { records := [], counter := (s.events.get p).counter }
  noRequests : t.attention.queues.get p = [] ∧
    ∀ q, t.attention.pair p q = .none ∧ t.attention.pair q p = .none
  otherRequests : ∀ a b, a ≠ p → b ≠ p → t.attention.pair a b = s.attention.pair a b ∧
    t.attention.queues.get b = (s.attention.queues.get b).filter (fun e => e.source != p)
  noProposal : t.partition = { s.partition with proposal := none }
  peersTold : ∀ q, q ≠ p → t.events.get q = s.hears q (
    allConduits.flatMap (fun n => s.departureRecords p n q) ++
    ((s.attention.queues.get p).filter (fun e => e.source == q)).map (fun e => .attnRefused p e.vector) ++
    (match s.partition.proposal with
      | some pr =>
        if pr.votes.get q ≠ .none then [.partitionResolved pr.id (.abandoned p) s.partition.generation] else []
      | none => []) ++
    [.peerDetached p cause])
  otherPorts : ∀ q, q ≠ p → t.port q = s.port q
  timeKept : t.time = s.time

end Sys2Proof.Machine
end

