-- ==== Sys2Proof/Certificates/Slice0/Obligations.lean ====
section
/-! DEFINITION. The statements for the provers. Each docstring names the rules of spec/ it rests on; where a clause is
the model's choice it names the log entry. `s.Awaits p shown` says that a command frame completing now on port p is
taken now; `s.replied p …` says what its controller holds then; `s.heard f` gives the event queues after the records
`f` lists for each port. -/

open Sys2Proof Sys2Proof.Machine

/-! ### The queue of commands and the step -/

/-- The model's own queue (notes/assumptions/14.md): a step runs the command at its front with the queue's rest. -/
def Obligations.StepTakesTheFrontCommand : Prop :=
  ∀ (s : State) (i : Instr) (rest : List Instr), s.pending = i :: rest →
    step s = exec i { s with pending := rest }

/-- The model's own choice (notes/assumptions/2.md): with no command waiting, a step is one reference clock period.
Global reset holds everything still (R183); otherwise the divider counts, and its 8000th period advances the counter
(R179) and takes the expiries of that advance (R180), or ends the start-up interval (R184). -/
def Obligations.IdleStepIsOneClockPeriod : Prop :=
  ∀ s : State, s.pending = [] →
    (s.time.reset = .held → step s = .next s) ∧
    (s.time.reset ≠ .held → s.dueExpiries = [] → s.time.divider + 1 < 8000 →
      step s = .next { s with time := { s.time with divider := s.time.divider + 1 } }) ∧
    (s.time.reset = .running → s.dueExpiries = [] → 8000 ≤ s.time.divider + 1 →
      step s = .next
        (State.expireDue { s with time := { counter := s.time.counter + 1, divider := 0, reset := .running } })) ∧
    (s.time.reset = .startUp → s.dueExpiries = [] → 8000 ≤ s.time.divider + 1 →
      step s = .next s.endStartUp.expireDue)

/-- Every occurrence has a next state: no rule of the part leaves a command or an event without its effect or its
refusal outcome (R153). A term that stands for no occurrence is refused (notes/assumptions/11.md): a BAD_COMMAND
whose code names a command, and a TRUNCATED with no known code or with complete arguments. -/
def Obligations.EveryOccurrenceHasANextState : Prop :=
  ∀ (i : Instr) (s : State),
    (i.wellFormed = true → ∃ t, exec i s = .next t) ∧
    (i.wellFormed = false →
      (∃ p code, i = .badCommand p code ∧ exec i s = .refused .codeNamesACommand) ∨
      (∃ p code args, i = .truncated p code args ∧ exec i s = .refused .argumentsNotIncomplete))

/-- The power-on values of every block, as R23, R50, R72, R100, R113, R132, R146, R159 and R179 give them; the divider
stands at the start of its period (R179) and no deadline is placed (R183). That the
reset is still held and the reset lines are asserted is the model's choice (notes/assumptions/1.md) and no part of this
statement. -/
def Obligations.PowerOnValuesOfEveryBlock : Prop :=
  State.reset.pool.freeBlocks = 512 ∧
  (∀ h, State.reset.segment h = none) ∧
  State.reset.pool.freeList.map Fin.val = List.range 256 ∧
  (∀ p, State.reset.pool.chargedBlocks.get p = 0 ∧ State.reset.pool.chargedDescriptors.get p = 0 ∧
    State.reset.chargedConduits p = 0) ∧
  (∀ n, State.reset.conduit n = { generation := 0, channel := none }) ∧
  (∀ p, State.reset.events.get p = { records := [], counter := 0 }) ∧
  (∀ p, State.reset.attention.queues.get p = [] ∧ ∀ q, State.reset.attention.pair p q = .none) ∧
  (∀ p, State.reset.partition.quotas.get p = { blocks := 128, descriptors := 64, conduits := 6 }) ∧
  State.reset.partition.generation = 0 ∧ State.reset.partition.proposal = none ∧
  State.reset.partition.idCounter = 0 ∧
  (∀ p, (State.reset.port p).state = .held ∧ (State.reset.port p).rotation = 23 ∧
    (State.reset.port p).outcome =
      { outcome := .done, command := Command.status.code, conduit := none, handle := none } ∧
    (State.reset.port p).transaction = none) ∧
  State.reset.time.counter = 0 ∧ State.reset.time.divider = 0 ∧ State.reset.placedDeadlines = []

/-! ### The frames of R169 -/

/-- Every command frame is read back as the command it was written for, whatever bytes follow it (R149, R150, R156,
R169): no argument byte is dropped or swapped. A code that names no command is BAD_COMMAND whatever follows (R151), and
a known code with too few argument bytes is TRUNCATED with the bytes received (R152). -/
def Obligations.FramesReadBackAsTheirCommands : Prop :=
  (∀ (i : Instr) (c : Command) (p : Port) (args rest : List Byte), i.frame = some (c, p, args) →
    args.length = c.argumentCount ∧ Instr.ofInput p (c.code :: args ++ rest) = some i) ∧
  (∀ (p : Port) (code : Byte) (rest : List Byte), (Instr.badCommand p code).wellFormed = true →
    Instr.ofInput p (code :: rest) = some (.badCommand p code)) ∧
  (∀ (p : Port) (code : Byte) (args : List Byte), (Instr.truncated p code args).wellFormed = true →
    Instr.ofInput p (code :: args) = some (.truncated p code args))

/-! ### Laws every step keeps -/

/-- The laws of Safety.lean hold right after power-on. -/
def Obligations.LawsHoldAtPowerOn : Prop :=
  PortLaw State.reset ∧ EventLaw State.reset ∧ AttentionLaw State.reset ∧ PartitionLaw State.reset ∧
  AccountingLaw State.reset ∧ ConduitLaw State.reset ∧ WindowLaw State.reset ∧ ReferenceLaw State.reset ∧
  DeadlineLaw State.reset ∧ PayloadLaw State.reset ∧ EntryLaw State.reset ∧ PromptLaw State.reset

/-- Every step keeps the law of the port controllers (R72, R133, R134, R142, R148, R162, R163, R184). -/
def Obligations.EveryStepKeepsThePortLaw : Prop :=
  ∀ s t : State, PortLaw s → step s = .next t → PortLaw t

/-- Every step keeps the law of the Event Unit: "each event queue holds at most 32 records, at most one of them is
OVERFLOW, and an OVERFLOW record that is present is the youngest", the numbers rise by one, and a port that is not
ATTACHED has an empty event queue (R83, R85, R88, R96). -/
def Obligations.EveryStepKeepsTheEventLaw : Prop :=
  ∀ s t : State, PortLaw s → EventLaw s → step s = .next t → EventLaw t

/-- Every step keeps the law of the Attention Unit (R101, R102). -/
def Obligations.EveryStepKeepsTheAttentionLaw : Prop :=
  ∀ s t : State, PortLaw s → AttentionLaw s → step s = .next t → AttentionLaw t

/-- Every step keeps the law of the Partition Unit (R115, R118, R119). -/
def Obligations.EveryStepKeepsThePartitionLaw : Prop :=
  ∀ s t : State, PortLaw s → PartitionLaw s → step s = .next t → PartitionLaw t

/-- Every step keeps the pool's accounts: every FREE descriptor once in the free-descriptor list, 512 blocks in all,
charges that count what each port produced, and no charge above its quota (R5, R6, R29, R117). -/
def Obligations.EveryStepKeepsTheAccounts : Prop :=
  ∀ s t : State, PartitionLaw s → AccountingLaw s → step s = .next t → AccountingLaw t

/-- Every step keeps the law of the conduit slots (R24, R25, R28, R35, R41, R75). -/
def Obligations.EveryStepKeepsTheConduitLaw : Prop :=
  ∀ s t : State, PortLaw s → ConduitLaw s → step s = .next t → ConduitLaw t

/-- Every step keeps the law of the windows and the sequences: "for every conduit in OPEN or DRAINING, outstanding equals
the number of FILLING and LIVE descriptors naming it and does not exceed its effective window, and a conduit in FREE or
OFFERED is named by no descriptor"; "no two LIVE descriptors naming the same conduit carry the same sequence number";
and a set latch means that the window is full (R17, R58, R60, R61, R62). -/
def Obligations.EveryStepKeepsTheWindowLaw : Prop :=
  ∀ s t : State, AccountingLaw s → ReferenceLaw s → WindowLaw s → step s = .next t → WindowLaw t

/-- Every step keeps the law of the references: a LIVE descriptor's tallies count exactly the queue entries, the holds
and the transfers in flight that name it, and a descriptor is LIVE only while it has one (R12, R13, R14, R15). And every
step keeps the law of the entries: an endpoint queues and holds a descriptor at most once, and no two of its holds
carry one sequence (R63, R75). -/
def Obligations.EveryStepKeepsTheReferenceLaw : Prop :=
  (∀ s t : State, PortLaw s → AccountingLaw s → ConduitLaw s → ReferenceLaw s → step s = .next t →
    ReferenceLaw t) ∧
  (∀ s t : State, PortLaw s → ConduitLaw s → WindowLaw s → ReferenceLaw s → EntryLaw s → step s = .next t →
    EntryLaw t)

/-- Every step keeps the law of the deadlines (R180, R181), which is an upper bound: no placed deadline is further away
than the advances its limit gives it, and so none is left behind the counter. It lets a due deadline stand at its
target, with time remaining 0. The second clause bounds that: every step keeps it so that the time remaining of a
placed deadline is at least 1, but for a deadline whose lapse row stands at the front of the queue, behind lapse rows
alone. That a sender may put the row of an expiry directly behind its advance, and that it is then taken there instead
of within the advance, is the model's choice (notes/assumptions/5.md); no command reads the part in between. -/
def Obligations.EveryStepKeepsTheDeadlineLaw : Prop :=
  (∀ s t : State, PortLaw s → PartitionLaw s → ConduitLaw s → DeadlineLaw s → step s = .next t → DeadlineLaw t) ∧
  (∀ s t : State, PortLaw s → PartitionLaw s → ConduitLaw s → EntryLaw s → PromptLaw s → step s = .next t →
    PromptLaw t)

/-! ### Rules of the whole part -/

/-- A quota check that passes always finds what it checked for: a FREE descriptor and enough free blocks for a POST, a
FREE slot for an OFFER (R117, from R115, R5, R6 and R29). -/
def Obligations.QuotaThatFitsIsAlwaysServed : Prop :=
  ∀ (s : State) (p : Port), PartitionLaw s → AccountingLaw s →
    (∀ length, s.segmentQuotaAllows p length = true →
      s.pool.freeList ≠ [] ∧ blockCount length ≤ s.pool.freeBlocks) ∧
    (s.conduitQuotaAllows p = true → ∃ n, s.channel n = none)

/-- Only an advance of the interval counter, the end of start-up and the two global reset events change the Time Base;
a command takes no time (R179, R183, R184; that commands take none is notes/assumptions/2.md). -/
def Obligations.OnlyTheTimeBaseRowsMoveTime : Prop :=
  ∀ (i : Instr) (s t : State), exec i s = .next t → i ≠ .intervalAdvance → i ≠ .endOfStartUp →
    i ≠ .globalResetAsserted → i ≠ .globalResetReleased → t.time = s.time

/-- A command or event of one port changes no other port's controller (R148, R159): its record, its transaction, its
rotation point, its reset line and its port state stay as they are. An expiry changes none at all. -/
def Obligations.OnePortsCommandLeavesOtherPortControllers : Prop :=
  ∀ (i : Instr) (s t : State), exec i s = .next t →
    (∀ c p args, i.frame = some (c, p, args) → ∀ q, q ≠ p → t.port q = s.port q) ∧
    (∀ p, (i = .transferEnd p ∨ i = .portResetAsserted p ∨ i = .portResetReleased p ∨ i = .selectAsserted p ∨
        (∃ code, i = .badCommand p code) ∨ (∃ code args, i = .truncated p code args) ∨
        (∃ bytes, i = .fillCompletion p bytes)) →
      ∀ q, q ≠ p → t.port q = s.port q) ∧
    ((i = .intervalAdvance ∨ i = .proposalLapse ∨ (∃ n, i = .offerLapse n) ∨ (∃ n p q, i = .holdLapse n p q)) →
      s.time.reset = .running → t.ports = s.ports)

/-- "A record becomes active only by adoption of a proposal" (R115), at a PROPOSE or at a VOTE, and it makes the next
partition generation (R114, R120); apart from adoption only a global reset changes the active record (R132). -/
def Obligations.QuotasChangeOnlyByAdoption : Prop :=
  ∀ (i : Instr) (s t : State), exec i s = .next t → i ≠ .globalResetAsserted →
    t.partition.quotas = s.partition.quotas ∧ t.partition.generation = s.partition.generation ∨
    t.partition.generation = s.partition.generation + 1 ∧ t.partition.proposal = none ∧
      ((∃ p q, i = .propose p q ∧ t.partition.quotas = q.map quotaOf) ∨
        (∃ p id choice pr, i = .vote p id choice ∧ s.partition.proposal = some pr ∧
          t.partition.quotas = pr.quotas))

/-- A slot's generation moves on only with an OFFER accepted into the slot while it is FREE, by one, and only a global
reset sets it back (R26, R31, R50). -/
def Obligations.GenerationMovesOnlyAtAnOffer : Prop :=
  ∀ (i : Instr) (s t : State) (n : ConduitNo), exec i s = .next t → i ≠ .globalResetAsserted →
    (t.conduit n).generation = (s.conduit n).generation ∨
    (t.conduit n).generation = (s.conduit n).generation + 1 ∧ s.channel n = none ∧ (t.channel n).isSome = true ∧
      ∃ p ms cl w sz hl, i = .offer p ms cl w sz hl

/-- A LIVE segment keeps its producer, length, payload bytes and sequence until it is freed (R2, R3, R163): whatever
happens, its descriptor is then as it was in these, or FREE. It can lose its conduit, and takes no other (R18). And every
step keeps the law of the payload: a LIVE segment has as many payload bytes as its length, and a fill as many as were
received, up to the length (R2, R53, R162). -/
def Obligations.LiveSegmentsKeepTheirContents : Prop :=
  (∀ (i : Instr) (s t : State) (h : Handle) (g : Segment) (q : Half) (r : Refs),
    AccountingLaw s → ReferenceLaw s → exec i s = .next t → s.segment h = some g → g.stage = .live q r →
    t.segment h = none ∨
    ∃ g' r', t.segment h = some g' ∧ g'.stage = .live q r' ∧ g'.producer = g.producer ∧ g'.length = g.length ∧
      g'.payload = g.payload ∧ (g'.conduit = g.conduit ∨ g'.conduit = none)) ∧
  (∀ s t : State, PortLaw s → AccountingLaw s → ReferenceLaw s → PayloadLaw s → step s = .next t → PayloadLaw t)

/-! ### Shared operations -/

/-- A record addressed to a port (R84, R85, R87, R88, R96): not recorded while the port is not ATTACHED; appended with
the counter's number to a queue of at most 30 without OVERFLOW; made into OVERFLOW with a lost count of 1 as the 32nd;
counted into a youngest OVERFLOW record, up to 65535, without a number. Every other queue, and everything else, stays. -/
def Obligations.AppendingARecord : Prop :=
  ∀ (s : State) (p : Port) (e : Event),
    (¬ s.Attached p → s.appendEvent p e = s) ∧
    (s.Attached p → (s.events.get p).records.all (fun r => !r.event.isOverflow) = true →
      (s.events.get p).records.length ≤ 30 →
      s.appendEvent p e = { s with
        events := s.events.set p
          { records := (s.events.get p).records ++ [{ number := (s.events.get p).counter, event := e }]
            counter := (s.events.get p).counter + 1 } }) ∧
    (s.Attached p → (s.events.get p).records.all (fun r => !r.event.isOverflow) = true →
      (s.events.get p).records.length = 31 →
      s.appendEvent p e = { s with
        events := s.events.set p
          { records := (s.events.get p).records ++ [{ number := (s.events.get p).counter, event := .overflow 1 }]
            counter := (s.events.get p).counter + 1 } }) ∧
    (∀ (before : List EventRecord) (number : Byte) (lost : Nat), s.Attached p →
      (s.events.get p).records = before ++ [{ number, event := .overflow lost }] →
      before.all (fun r => !r.event.isOverflow) = true → lost ≤ 65535 →
      s.appendEvent p e = { s with
        events := s.events.set p
          { records := before ++ [{ number, event := .overflow (if lost < 65535 then lost + 1 else 65535) }]
            counter := (s.events.get p).counter } })

/-- A claim on a LIVE descriptor (R13, R14, R16): the tallies change by the table of R13, and the claim that leaves a
count of 0 frees the descriptor: its blocks return, its producer's charges fall, its handle joins the tail of the
free-descriptor list and its conduit, if it names one, gets the freeing notice. The notice to an OPEN or DRAINING
conduit (R17, R62): outstanding falls by one, and where the latch is set and outstanding is then below the window, the
latch clears and the producer receives WINDOW_OPEN. -/
def Obligations.ClaimsFreeAtZeroAndReopenTheWindow : Prop :=
  (∀ (s : State) (c : Claim) (h : Handle) (g : Segment) (q : Half) (r : Refs),
      s.segment h = some g → g.stage = .live q r →
      ((c.change r).queue + (c.change r).hold + (c.change r).transfer ≠ 0 →
        s.claim c h = s.setSegment h (some { g with stage := .live q (c.change r) })) ∧
      ((c.change r).queue + (c.change r).hold + (c.change r).transfer = 0 →
        s.claim c h =
          (fun freed : State => match g.conduit with | some n => freed.freeingNotice n | none => freed)
          { s with
            pool :=
              { freeBlocks := s.pool.freeBlocks + (g.length + 127) / 128
                descriptors := s.pool.descriptors.set h none
                freeList := s.pool.freeList ++ [h]
                chargedBlocks :=
                  s.pool.chargedBlocks.set g.producer (s.pool.chargedBlocks.get g.producer - (g.length + 127) / 128)
                chargedDescriptors :=
                  s.pool.chargedDescriptors.set g.producer (s.pool.chargedDescriptors.get g.producer - 1) } }) ∧
      Claim.take.change r = { queue := r.queue - 1, hold := r.hold + 1, transfer := r.transfer + 1 } ∧
      (∀ x ∈ [Claim.peek, Claim.heldRead], x.change r = { r with transfer := r.transfer + 1 }) ∧
      Claim.transferEnd.change r = { r with transfer := r.transfer - 1 } ∧
      (∀ x ∈ [Claim.release, Claim.holdLapse, Claim.removeHeld], x.change r = { r with hold := r.hold - 1 }) ∧
      (∀ x ∈ [Claim.flush, Claim.removeQueued], x.change r = { r with queue := r.queue - 1 })) ∧
  (∀ (s : State) (n : ConduitNo) (ch : Channel) (f : Flow), s.channel n = some ch → ch.stage.flow? = some f →
      (f.windowLatch = true → f.outstanding - 1 < f.window →
        s.freeingNotice n = { s with
          conduits := s.withUse n (some
            (ch.mapFlow (fun _ => { f with outstanding := f.outstanding - 1, windowLatch := false })))
          events := s.heard (fun q => if q = ch.producer then [.windowOpen n] else []) }) ∧
      (¬ (f.windowLatch = true ∧ f.outstanding - 1 < f.window) →
        s.freeingNotice n = { s with
          conduits := s.withUse n (some (ch.mapFlow (fun _ => { f with outstanding := f.outstanding - 1 }))) }))

/-- The drain check (R41, R48): a DRAINING conduit whose members queue and hold nothing ends. CONDUIT_ENDED with reason
DRAINED goes to the present producer and to every member, every descriptor that names the slot is detached, and the
slot is FREE with its generation kept. Any other conduit is left as it is. -/
def Obligations.DrainCheckEndsADrainedConduit : Prop :=
  ∀ (s : State) (n : ConduitNo) (ch : Channel), s.channel n = some ch →
    ch.producer ∉ ch.memberPorts → ch.memberPorts.Nodup →
    (∀ f, ch.stage = .draining f → (∀ e ∈ ch.members, e.queue = [] ∧ e.holds = []) →
      s.drainCheck n = { s with
        pool := s.pool.detach n
        conduits := s.withUse n none
        events := s.heard (fun q =>
          if (q = ch.producer ∧ ch.producerPresent = true) ∨ q ∈ ch.memberPorts then
            [.conduitEnded n (s.conduit n).generation .drained]
          else []) }) ∧
    ((∀ f, ch.stage = .draining f → ∃ e ∈ ch.members, e.queue ≠ [] ∨ e.holds ≠ []) → s.drainCheck n = s)

/-- The effective window and the effective maximum size of an opening conduit are minima (R35): no greater than the
value requested or than any member's limit, and equal to one of them. -/
def Obligations.EffectiveValuesAreMinima : Prop :=
  ∀ ch : Channel,
    (ch.smallestWindow ≤ ch.requestedWindow ∧
      (∀ e ∈ ch.members, ∀ w z, e.answer = .accepted w z → ch.smallestWindow ≤ w) ∧
      (ch.smallestWindow = ch.requestedWindow ∨
        ∃ e ∈ ch.members, ∃ w z, e.answer = .accepted w z ∧ ch.smallestWindow = w)) ∧
    (ch.smallestSize ≤ ch.requestedSize ∧
      (∀ e ∈ ch.members, ∀ w z, e.answer = .accepted w z → ch.smallestSize ≤ z) ∧
      (ch.smallestSize = ch.requestedSize ∨
        ∃ e ∈ ch.members, ∃ w z, e.answer = .accepted w z ∧ ch.smallestSize = z))

/-- The records the part shifts out, byte by byte, whatever the state. Their lengths (R168, R172, R175, R177, R178). The
status header (R168): the port state in bits 7 and 6 of byte 0, the attention count in bits 5 and 4, the flag in bit 3.
The event record of each kind, with NONE (R172, R173, R174). The conduit record of a FREE slot and of one in use, by its
state, with its three member entries (R175). The partition record without and with a proposal (R176, R177). The
descriptor record by descriptor state, and the pool record (R178). And the notify output (R97): it is asserted exactly
while the port is ATTACHED and one of its two queues is not empty. -/
def Obligations.RecordsHaveTheirLengths : Prop :=
  ((∀ h : StatusHeader, h.bytes.length = 4) ∧
    (∀ r : EventRecord, r.bytes.length = 8) ∧ (∀ counter, (noneRecord counter).length = 8) ∧
    ∀ s : State, (∀ n, (s.conduitRecord n).length = 45) ∧ s.partitionRecord.length = 50 ∧
      (∀ h, (s.descriptorRecord h).length = 12) ∧ s.poolRecord.length = 24) ∧
  (∀ h : StatusHeader, h.attentionCount ≤ 3 → ∃ first : Byte,
    h.bytes = [first, BitVec.ofNat 8 h.eventCount, h.lastOutcome.byte, h.lastCommand] ∧
    first.extractLsb' 6 2 =
      (match h.portState with | .starting => 0b01#2 | .detached => 0b10#2 | .attached => 0b11#2) ∧
    (first.extractLsb' 4 2).toNat = h.attentionCount ∧ first.getLsbD 3 = h.overflow ∧
    first.extractLsb' 0 3 = 0) ∧
  (∀ (k g id : Byte) (n : ConduitNo) (p : Port) (q : Half) (w z v lost : Nat) (c m : Byte),
    c = BitVec.ofNat 8 n.val → m = BitVec.ofNat 8 p.toNat →
    noneRecord k = [0x00, k, 0, 0, 0, 0, 0, 0] ∧
    EventRecord.bytes ⟨k, .arrived n⟩ = [0x01, k, c, 0, 0, 0, 0, 0] ∧
    EventRecord.bytes ⟨k, .windowOpen n⟩ = [0x02, k, c, 0, 0, 0, 0, 0] ∧
    EventRecord.bytes ⟨k, .holdLapsed n q⟩ = [0x03, k, c] ++ bigEndian q ++ [0, 0, 0] ∧
    EventRecord.bytes ⟨k, .offerReceived n g p w z⟩ = [0x04, k, c, g, m, BitVec.ofNat 8 w] ++ halfBytes z ∧
    (EventRecord.bytes ⟨k, .offerResolved n g (.opened w)⟩ = [0x05, k, c, g, 0x01, 0xFF, BitVec.ofNat 8 w, 0] ∧
      EventRecord.bytes ⟨k, .offerResolved n g (.declined p)⟩ = [0x05, k, c, g, 0x02, m, 0, 0] ∧
      EventRecord.bytes ⟨k, .offerResolved n g .lapsed⟩ = [0x05, k, c, g, 0x03, 0xFF, 0, 0] ∧
      EventRecord.bytes ⟨k, .offerResolved n g (.withdrawn p)⟩ = [0x05, k, c, g, 0x04, m, 0, 0] ∧
      EventRecord.bytes ⟨k, .offerResolved n g (.memberGone p)⟩ = [0x05, k, c, g, 0x05, m, 0, 0]) ∧
    EventRecord.bytes ⟨k, .producerClosed n⟩ = [0x06, k, c, 0, 0, 0, 0, 0] ∧
    EventRecord.bytes ⟨k, .producerGone n⟩ = [0x07, k, c, 0, 0, 0, 0, 0] ∧
    EventRecord.bytes ⟨k, .consumerGone n p .left⟩ = [0x08, k, c, m, 0x01, 0, 0, 0] ∧
    EventRecord.bytes ⟨k, .consumerGone n p .departed⟩ = [0x08, k, c, m, 0x02, 0, 0, 0] ∧
    EventRecord.bytes ⟨k, .conduitEnded n g .drained⟩ = [0x09, k, c, g, 0x01, 0, 0, 0] ∧
    EventRecord.bytes ⟨k, .conduitEnded n g .noConsumers⟩ = [0x09, k, c, g, 0x02, 0, 0, 0] ∧
    EventRecord.bytes ⟨k, .flushed n w⟩ = [0x0A, k, c, BitVec.ofNat 8 w, 0, 0, 0, 0] ∧
    EventRecord.bytes ⟨k, .attnTaken p v⟩ = [0x0B, k, m, BitVec.ofNat 8 v, 0, 0, 0, 0] ∧
    EventRecord.bytes ⟨k, .attnRefused p v⟩ = [0x0C, k, m, BitVec.ofNat 8 v, 0x01, 0, 0, 0] ∧
    EventRecord.bytes ⟨k, .partitionProposed id p⟩ = [0x0D, k, id, m, 0, 0, 0, 0] ∧
    (EventRecord.bytes ⟨k, .partitionResolved id .adopted q⟩ = [0x0E, k, id, 0x01, 0xFF] ++ bigEndian q ++ [0] ∧
      EventRecord.bytes ⟨k, .partitionResolved id (.rejected p) q⟩ = [0x0E, k, id, 0x02, m] ++ bigEndian q ++ [0] ∧
      EventRecord.bytes ⟨k, .partitionResolved id .lapsed q⟩ = [0x0E, k, id, 0x03, 0xFF] ++ bigEndian q ++ [0] ∧
      EventRecord.bytes ⟨k, .partitionResolved id (.abandoned p) q⟩ = [0x0E, k, id, 0x04, m] ++ bigEndian q ++ [0] ∧
      EventRecord.bytes ⟨k, .partitionResolved id (.withdrawn p) q⟩ = [0x0E, k, id, 0x05, m] ++ bigEndian q ++ [0] ∧
      EventRecord.bytes ⟨k, .partitionResolved id (.failedUsage p) q⟩ =
        [0x0E, k, id, 0x06, m] ++ bigEndian q ++ [0]) ∧
    EventRecord.bytes ⟨k, .peerAttached p⟩ = [0x0F, k, m, 0, 0, 0, 0, 0] ∧
    EventRecord.bytes ⟨k, .peerDetached p .detach⟩ = [0x10, k, m, 0x01, 0, 0, 0, 0] ∧
    EventRecord.bytes ⟨k, .peerDetached p .reset⟩ = [0x10, k, m, 0x02, 0, 0, 0, 0] ∧
    EventRecord.bytes ⟨k, .overflow lost⟩ = [0x11, k] ++ halfBytes lost ++ [0, 0, 0, 0]) ∧
  (∀ (s : State) (n : ConduitNo),
    (s.channel n = none → s.conduitRecord n =
      [BitVec.ofNat 8 n.val, 0x00, (s.conduit n).generation, 0xFF] ++ List.replicate 17 0 ++
        (List.replicate 3 ([0xFF, 0, 0, 0, 0, 0, 0, 0] : List Byte)).flatten) ∧
    (∀ ch, s.channel n = some ch →
      (s.conduitRecord n).take 12 =
        [BitVec.ofNat 8 n.val,
         (match ch.stage with | .offered _ => 0x01 | .opened _ => 0x02 | .draining _ => 0x03),
         (s.conduit n).generation, BitVec.ofNat 8 ch.producer.toNat, (if ch.producerPresent = true then 0x01 else 0x00),
         BitVec.ofNat 8 (s.chargedConduits ch.producer),
         (match ch.cls with | .urgent => 0x01 | .routine => 0x02), BitVec.ofNat 8 ch.requestedWindow] ++
        halfBytes ch.requestedSize ++ halfBytes ch.holdLimit ∧
      (∀ d, ch.stage = .offered d → ((s.conduitRecord n).drop 12).take 8 =
        [BitVec.ofNat 8 (s.timeRemaining d), 0, 0, 0, 0, 0, 0, 0]) ∧
      (∀ f, ch.stage.flow? = some f → ((s.conduitRecord n).drop 12).take 8 =
        [0, BitVec.ofNat 8 f.window] ++ halfBytes f.maxSize ++ bigEndian f.nextSequence ++
          [BitVec.ofNat 8 f.outstanding, if f.windowLatch = true then 0x01 else 0x00]) ∧
      (s.conduitRecord n)[20]? = some (BitVec.ofNat 8 ch.members.length) ∧
      ∀ i, i < 3 → ((s.conduitRecord n).drop (21 + 8 * i)).take 8 =
        match ch.members[i]? with
        | none => [0xFF, 0, 0, 0, 0, 0, 0, 0]
        | some e =>
          [BitVec.ofNat 8 e.port.toNat] ++
          (match e.answer with
            | .pending => [0x01, 0, 0, 0]
            | .accepted w z => [0x02, BitVec.ofNat 8 w] ++ halfBytes z) ++
          [BitVec.ofNat 8 e.queue.length, BitVec.ofNat 8 e.holds.length, BitVec.ofNat 8 e.lapsed.length])) ∧
  (∀ (s : State) (block : PerPort Quota → List Byte),
    (∀ q, block q = Port.all.flatMap (fun p => halfBytes (q.get p).blocks ++ halfBytes (q.get p).descriptors ++
      [BitVec.ofNat 8 (q.get p).conduits])) →
    (s.partition.proposal = none → s.partitionRecord =
      bigEndian s.partition.generation ++ block s.partition.quotas ++ [0x00, 0, 0xFF] ++ List.replicate 25 0) ∧
    (∀ pr, s.partition.proposal = some pr → s.partitionRecord =
      bigEndian s.partition.generation ++ block s.partition.quotas ++
        [0x01, pr.id, BitVec.ofNat 8 pr.proposer.toNat] ++ block pr.quotas ++
        Port.all.map (fun p =>
          (match pr.votes.get p with | .none => 0x00 | .pending => 0x01 | .accept => 0x02 : Byte)) ++
        [BitVec.ofNat 8 (s.timeRemaining pr.deadline)])) ∧
  (∀ (s : State) (h : Handle) (b : Byte), b = BitVec.ofNat 8 h.val →
    (s.segment h = none → s.descriptorRecord h = [b, 0x00, 0xFF, 0xFF, 0, 0, 0, 0, 0, 0, 0, 0]) ∧
    (∀ g (c : Byte), s.segment h = some g →
      c = (match g.conduit with | some n => BitVec.ofNat 8 n.val | none => 0xFF) →
      (g.stage = .filling → s.descriptorRecord h =
        [b, 0x01, BitVec.ofNat 8 g.producer.toNat, c, 0, 0] ++ halfBytes g.length ++
          [BitVec.ofNat 8 ((g.length + 127) / 128), 0, 0, 0]) ∧
      (∀ q r, g.stage = .live q r → s.descriptorRecord h =
        [b, 0x02, BitVec.ofNat 8 g.producer.toNat, c] ++ bigEndian q ++ halfBytes g.length ++
          [BitVec.ofNat 8 ((g.length + 127) / 128), BitVec.ofNat 8 r.queue, BitVec.ofNat 8 r.hold,
           BitVec.ofNat 8 r.transfer]))) ∧
  (∀ s : State, s.poolRecord = halfBytes s.pool.freeBlocks ++ halfBytes s.pool.freeList.length ++
    Port.all.flatMap (fun p => halfBytes (s.pool.chargedBlocks.get p) ++
      halfBytes (s.pool.chargedDescriptors.get p) ++ [BitVec.ofNat 8 (s.chargedConduits p)])) ∧
  (∀ (s : State) (p : Port), s.notify p = true ↔
    s.Attached p ∧ ((s.events.get p).records ≠ [] ∨ s.attention.queues.get p ≠ []))

/-! ### What every command checks first -/

/-- The port-state check (R134, R135, R148, R155, R157): a port that shows STARTING refuses every command NOT_READY; a
DETACHED port refuses NOT_ATTACHED all but six; an ATTACHED port refuses ATTACH. Such a refusal writes the outcome
record and replies, and changes nothing else. A port that ignores select, carries no transaction, or is already in a
reply takes no command; in the payload phase of a POST its bytes are payload (R162). In the arguments phase of the
same frame (R148, R150), its acceptance is the one it would have had from the command phase.
That such a frame can be offered at all is the model's form of it (notes/assumptions/4.md). -/
def Obligations.PortStateAdmitsItsCommands : Prop :=
  ∀ (i : Instr) (c : Command) (p : Port) (args : List Byte) (s : State), i.frame = some (c, p, args) →
    (s.Awaits p .starting → exec i s = .next (s.replied p c .notReady (namedConduit c args) none [])) ∧
    (s.Awaits p .detached →
      c ∉ [.status, .attach, .poolInfo, .segmentInfo, .conduitInfo, .readPartition] →
      exec i s = .next (s.replied p c .notAttached (namedConduit c args) none [])) ∧
    (s.Awaits p .attached → c = .attach → exec i s = .next (s.replied p c .alreadyAttached none none [])) ∧
    (s.shownState p = none ∨ (s.port p).transaction = none → exec i s = .next s) ∧
    (∀ x, (s.port p).transaction = some x → x.phase = .reply → exec i s = .next s) ∧
    (∀ x, (s.shownState p).isSome = true → (s.port p).transaction = some x → x.phase = .payload →
      exec i s = .next (s.receivePayload p (c.code :: args))) ∧
    (∀ x received missing, (s.port p).transaction = some x → x.phase = .arguments c.code received →
      args = received ++ missing → (s.shownState p).isSome = true →
      exec i s = exec i (s.setPort p { s.port p with
        transaction := some { x with phase := .command, byteCount := 0 } }))

/-- R27: "Every command that names a conduit first checks the conduit number and the slot's state, before any check of
its own." A number above 23 is refused BAD_ARGUMENT and a FREE slot WRONG_STATE, after the checks of port state;
CONDUIT_INFO reports a FREE slot instead. -/
def Obligations.ConduitNumberAndSlotAreCheckedFirst : Prop :=
  ∀ (i : Instr) (c : Command) (p : Port) (b : Byte) (args : List Byte) (s : State),
    i.frame = some (c, p, b :: args) → namesConduit c = true →
    (s.Awaits p .starting → exec i s = .next (s.replied p c .notReady (conduitOf? b) none [])) ∧
    (s.Awaits p .detached → c ≠ .conduitInfo →
      exec i s = .next (s.replied p c .notAttached (conduitOf? b) none [])) ∧
    (∀ shown, s.Awaits p shown → shown = .attached ∨ c = .conduitInfo ∧ shown = .detached →
      (23 < b.toNat → exec i s = .next (s.replied p c .badArgument none none [])) ∧
      (∀ n : ConduitNo, b.toNat = n.val → s.channel n = none →
        (c ≠ .conduitInfo → exec i s = .next (s.replied p c .wrongState (some n) none [])) ∧
        (c = .conduitInfo → exec i s = .next (s.replied p c .done (some n) none (s.conduitRecord n)))))

/-- R66: a refused TAKE, TAKE_ANY, PEEK or READ_HELD changes no reference, queue, hold set, lapsed list or rotation
point; the refusal is shifted out at position 4 and zeros follow it, no payload; and it is written into the outcome
record. -/
def Obligations.RefusedReadsChangeNothing : Prop :=
  ∀ (i : Instr) (c : Command) (p : Port) (args : List Byte) (shown : ShownState) (s t : State),
    i.frame = some (c, p, args) → c = .take ∨ c = .takeAny ∨ c = .peek ∨ c = .readHeld →
    s.Awaits p shown → exec i s = .next t → (t.port p).outcome.outcome ≠ .done →
    t = s.replied p c (t.port p).outcome.outcome (t.port p).outcome.conduit none [] ∧
    t.shiftedOut p 4 = some (t.port p).outcome.outcome.byte ∧
    ∀ position, 5 ≤ position → t.shiftedOut p position = some 0

/-! ### Port controllers -/

/-- R161: an accepted STATUS changes no state and leaves the outcome record as it was (the transaction's own phase
apart); the part shifts out the header at positions 0 to 3 and zeros after it; the release that follows has no effect
but to end the transaction. While the port shows STARTING it is refused NOT_READY. -/
def Obligations.StatusChangesNothing : Prop :=
  ∀ (s : State) (p : Port) (shown : ShownState) (x : Transaction), PortLaw s → s.Awaits p shown →
    (s.port p).transaction = some x →
    (shown ≠ .starting → ∃ t, exec (.status p) s = .next t ∧
      t = s.setPort p ((s.port p).replying .status []) ∧
      (∀ position, position < 4 → t.shiftedOut p position = x.header.bytes[position]?) ∧
      (∀ position, 4 ≤ position → t.shiftedOut p position = some 0) ∧
      exec (.transferEnd p) t = .next (s.setPort p { s.port p with transaction := none })) ∧
    (shown = .starting → exec (.status p) s = .next (s.replied p .status .notReady none none []))

/-- ATTACH on a DETACHED port (R96, R136, R137): the port is ATTACHED with its rotation point at 23, its event queue
empty and its event number counter 0; a pending proposal is abandoned; and every other ATTACHED port hears
PEER_ATTACHED, behind the PARTITION_RESOLVED it gets as a voter. -/
def Obligations.AttachJoinsTheExchange : Prop :=
  ∀ (s joined : State) (p : Port), s.Awaits p .detached →
    joined =
      { s with
        ports := s.ports.set p { s.port p with state := .attached, rotation := 23 }
        events := s.events.set p { records := [], counter := 0 } } →
    exec (.attach p) s = .next (State.replied
      { joined with
        partition := { s.partition with proposal := none }
        events := joined.heard (fun q =>
          (match s.partition.proposal with
            | some pr =>
              if pr.votes.get q ≠ .none then
                [.partitionResolved pr.id (.abandoned p) s.partition.generation]
              else []
            | none => []) ++ if q = p then [] else [.peerAttached p]) }
      p .attach .done none none [])

/-- DETACH on an ATTACHED port (R139, R143, R144): the port departs with cause DETACH, is DETACHED with its outcome
record at DONE for STATUS and its rotation point at 23, and replies DONE. -/
def Obligations.DetachDeparts : Prop :=
  ∀ (s : State) (p : Port), ConduitLaw s → ReferenceLaw s → s.Awaits p .attached →
    ∃ t, exec (.detach p) s = .next t ∧ DepartedTo s t p .detach ∧
      t.port p = { (s.port p).replying .detach [OutcomeCode.done.byte] with
        state := .detached
        outcome := { outcome := .done, command := Command.status.code, conduit := none, handle := none }
        rotation := 23 } ∧
      t.choices = s.choices ∧ t.pending = s.pending

/-- PORT_RESET_ASSERTED (R11, R15, R140, R141): the transaction in flight ends first, a fill freed as abandoned and a
transfer ended by its claim, and any other, in its arguments phase too, without a trace; an ATTACHED port then departs with cause RESET. Whatever it was, the port is HELD with
its record, rotation point and transaction cleared. A HELD port that ignores select changes in nothing but the
level of the line. PORT_RESET_RELEASED (R142, R184): in operation the port becomes DETACHED; in the start-up interval,
and while global reset is held, it stays HELD and only the line's level changes. A line that is not asserted has no
release (notes/assumptions/16.md). -/
def Obligations.PortResetHoldsAndReleasesThePort : Prop :=
  (∀ (s : State) (p : Port), PortLaw s →
      (s.Attached p → ConduitLaw s → ReferenceLaw s →
        ∃ t, exec (.portResetAsserted p) s = .next t ∧ DepartedTo (s.abort p) t p .reset ∧
          t.port p = { state := .held, resetAsserted := true, outcome := OutcomeRecord.initial, rotation := 23,
                       transaction := none } ∧
          (∀ h, s.fillHandle? p = some h → t.segment h = none) ∧
          t.choices = s.choices ∧ t.pending = s.pending) ∧
      ((s.port p).state = .detached →
        exec (.portResetAsserted p) s = .next (s.setPort p
          { state := .held, resetAsserted := true, outcome := OutcomeRecord.initial, rotation := 23,
            transaction := none })) ∧
      ((s.port p).state = .held → (s.shownState p).isSome = true →
        exec (.portResetAsserted p) s = .next (s.setPort p { s.port p with
          resetAsserted := true
          outcome := OutcomeRecord.initial
          transaction := none })) ∧
      (s.shownState p = none →
        exec (.portResetAsserted p) s = .next (s.setPort p { s.port p with resetAsserted := true })) ∧
      (∀ h, s.fillHandle? p = some h → s.abort p = (s.freeDescriptor h).setPort p
        { (s.freeDescriptor h).port p with transaction := none }) ∧
      (∀ h, s.transferHandle? p = some h → s.abort p = (s.claim .transferEnd h).setPort p
        { s.port p with
          outcome := { (s.port p).outcome with handle := none }
          transaction := none }) ∧
      (s.fillHandle? p = none → s.transferHandle? p = none →
        s.abort p = s.setPort p { s.port p with transaction := none })) ∧
  (∀ (s : State) (p : Port),
      ((s.port p).resetAsserted = true → s.time.reset = .running →
        exec (.portResetReleased p) s =
          .next (s.setPort p { s.port p with state := .detached, resetAsserted := false })) ∧
      ((s.port p).resetAsserted = true → s.time.reset ≠ .running →
        exec (.portResetReleased p) s = .next (s.setPort p { s.port p with resetAsserted := false })) ∧
      ((s.port p).resetAsserted = false → exec (.portResetReleased p) s = .next s))

/-- SELECT_ASSERTED (R134, R148, R158): a port that answers select begins a transaction in the command phase with no
byte complete, and takes its header now: the shown state, the overflow-present flag, both counts, and the last outcome
and command. A port that ignores select begins none. A transaction still in place is released first
(notes/assumptions/4.md). -/
def Obligations.SelectBeginsATransaction : Prop :=
  ∀ (s : State) (p : Port),
    (∀ shown, s.shownState p = some shown → (s.port p).transaction = none →
      exec (.selectAsserted p) s = .next (s.setPort p { s.port p with
        transaction := some
          { header :=
              { portState := shown
                overflow := (s.events.get p).records.any (fun r => r.event.isOverflow)
                attentionCount := (s.attention.queues.get p).length
                eventCount := (s.events.get p).records.length
                lastOutcome := (s.port p).outcome.outcome
                lastCommand := (s.port p).outcome.command }
            phase := .command
            byteCount := 0
            replyPosition := 4
            reply := [] } })) ∧
    (s.shownState p = none → exec (.selectAsserted p) s = .next s) ∧
    ((s.port p).transaction ≠ none → (s.shownState p).isSome = true → ∀ t, exec (.transferEnd p) s = .next t →
      exec (.selectAsserted p) s = exec (.selectAsserted p) t)

/-- BAD_COMMAND (R151, R171) and TRUNCATED (R152) in every state that answers select: the record takes the refusal, the
received code and no conduit or handle; BAD_COMMAND replies with its one byte at position 4, TRUNCATED ends the
transaction; nothing else changes. Byte by byte (R148, R149, R150): byte 0 of a known command and too few argument bytes
leave the transaction in the arguments phase with its count of complete bytes, and nothing else changed; a release of
select there is the TRUNCATED of these bytes; the last argument byte is the acceptance, with the effect of the command's
row; and an unknown code is BAD_COMMAND at byte 0, whatever bytes follow. -/
def Obligations.FramingRefusalsWriteTheRecord : Prop :=
  (∀ (s : State) (p : Port) (shown : ShownState) (code : Byte), s.Awaits p shown →
    (Command.ofCode? code = none →
      exec (.badCommand p code) s = .next (s.setPort p { s.port p with
        outcome := { outcome := .badCommand, command := code, conduit := none, handle := none }
        transaction := (s.port p).transaction.map (fun x =>
          { x with
            phase := .reply
            byteCount := 1
            replyPosition := 4
            reply := [0x11] }) })) ∧
    (∀ c args, Command.ofCode? code = some c → args.length < c.argumentCount →
      exec (.truncated p code args) s = .next (s.setPort p { s.port p with
        outcome := { outcome := .truncated, command := code, conduit := none, handle := none }
        transaction := none }))) ∧
  (∀ (s : State) (p : Port) (shown : ShownState), s.Awaits p shown →
    (∀ (c : Command) (args : List Byte), args.length < c.argumentCount →
      s.shiftInAll p (c.code :: args) = s.setPort p { s.port p with
        transaction := (s.port p).transaction.map (fun x =>
          { x with
            phase := .arguments c.code args
            byteCount := 1 + args.length }) } ∧
      exec (.transferEnd p) (s.shiftInAll p (c.code :: args)) = exec (.truncated p c.code args) s) ∧
    (∀ i c args, i.frame = some (c, p, args) → exec i s = .next (s.shiftInAll p (c.code :: args))) ∧
    (∀ code rest, Command.ofCode? code = none →
      exec (.badCommand p code) s = .next (s.shiftInAll p (code :: rest))))

/-! ### Queries -/

/-- CONDUIT_INFO, READ_PARTITION, POOL_INFO and SEGMENT_INFO on a DETACHED or ATTACHED port (R21, R22, R49, R131): each
replies DONE with its record as it stands at the acceptance, and changes nothing but the port's own record and
transaction. -/
def Obligations.QueriesReadAndChangeNothing : Prop :=
  ∀ (s : State) (p : Port) (shown : ShownState) (b : Byte), s.Awaits p shown → shown ≠ .starting →
    (∀ n : ConduitNo, b.toNat = n.val →
      exec (.conduitInfo p b) s = .next (s.replied p .conduitInfo .done (some n) none (s.conduitRecord n))) ∧
    exec (.readPartition p) s = .next (s.replied p .readPartition .done none none s.partitionRecord) ∧
    exec (.poolInfo p) s = .next (s.replied p .poolInfo .done none none s.poolRecord) ∧
    (∀ h : Handle, b.toNat = h.val →
      exec (.segmentInfo p b) s = .next (s.replied p .segmentInfo .done none none (s.descriptorRecord h)))

/-- NEXT_EVENT on an ATTACHED port (R90, R91): the oldest record is popped and shifted out; on an empty queue the reply
is the kind NONE with the counter's value and zeros, and nothing is popped. -/
def Obligations.NextEventPopsTheOldest : Prop :=
  ∀ (s : State) (p : Port), s.Awaits p .attached →
    (∀ r rest, (s.events.get p).records = r :: rest →
      exec (.nextEvent p) s = .next (State.replied
        { s with events := s.events.set p { records := rest, counter := (s.events.get p).counter } }
        p .nextEvent .done none none r.bytes)) ∧
    ((s.events.get p).records = [] →
      exec (.nextEvent p) s = .next (s.replied p .nextEvent .done none none
        ([0x00, (s.events.get p).counter] ++ [0, 0, 0, 0, 0, 0])))

/-! ### The Conduit Table -/

/-- OFFER (R30, R31): the checks in their order, and the offer on the lowest-numbered FREE slot: generation advanced by
one, OFFERED with the arguments, one PENDING endpoint for each member, the deadline placed, OFFER_RECEIVED to each
member, and conduit and generation in the reply. -/
def Obligations.OfferTakesTheLowestFreeSlot : Prop :=
  ∀ (s : State) (p : Port) (ms cls w : Byte) (sz hl : Half), s.Awaits p .attached →
    (¬ (ms.toNat < 16 ∧ membersOf ms ≠ [] ∧ p ∉ membersOf ms) →
      exec (.offer p ms cls w sz hl) s = .next (s.replied p .offer .badArgument none none [])) ∧
    (ms.toNat < 16 → membersOf ms ≠ [] → p ∉ membersOf ms →
      ((∃ m ∈ membersOf ms, ¬ s.Attached m) →
        exec (.offer p ms cls w sz hl) s = .next (s.replied p .offer .peerAbsent none none [])) ∧
      ((∀ m ∈ membersOf ms, s.Attached m) →
        (¬ ((cls = 0x01 ∨ cls = 0x02) ∧ 1 ≤ w.toNat ∧ w.toNat ≤ 16 ∧ 1 ≤ sz.toNat ∧ sz.toNat ≤ 1024 ∧
            hl.toNat ≤ 1000) →
          exec (.offer p ms cls w sz hl) s = .next (s.replied p .offer .badArgument none none [])) ∧
        ((cls = 0x01 ∨ cls = 0x02) → 1 ≤ w.toNat → w.toNat ≤ 16 → 1 ≤ sz.toNat → sz.toNat ≤ 1024 →
          hl.toNat ≤ 1000 →
          ((s.partition.quotas.get p).conduits < s.chargedConduits p + 1 →
            exec (.offer p ms cls w sz hl) s = .next (s.replied p .offer .overQuota none none [])) ∧
          (∀ n : ConduitNo, s.chargedConduits p + 1 ≤ (s.partition.quotas.get p).conduits →
            s.channel n = none → (∀ m : ConduitNo, m < n → s.channel m ≠ none) →
            exec (.offer p ms cls w sz hl) s = .next (State.replied
              { s with
                conduits := s.conduits.set n
                  { generation := (s.conduit n).generation + 1
                    channel := some
                      { producer := p
                        producerPresent := true
                        cls := if cls = 0x01 then .urgent else .routine
                        requestedWindow := w.toNat
                        requestedSize := sz.toNat
                        holdLimit := hl.toNat
                        members := (membersOf ms).map (fun m =>
                          { port := m, answer := .pending, queue := [], holds := [], lapsed := [] })
                        stage := .offered (s.time.counter + 101) } }
                events := s.heard (fun q =>
                  if q ∈ membersOf ms then
                    [.offerReceived n ((s.conduit n).generation + 1) p w.toNat sz.toNat]
                  else []) }
              p .offer .done (some n) none [byteOf n.val, (s.conduit n).generation + 1])))))

/-- ANSWER on a slot in use. First the refusals in the order of R33: STALE, WRONG_STATE for a slot that is not OFFERED,
NOT_MEMBER, WRONG_STATE for an answer already given, BAD_ARGUMENT; none has an effect. Then the answer of a PENDING
member (R34, R35, R36): ACCEPT records the answer and its limits and tells no one while another answer is PENDING; the
last one opens the conduit with its effective values and sends OFFER_RESOLVED with OPENED to the producer and every
member; DECLINE sends DECLINED to the producer and the other members, and the slot is FREE. -/
def Obligations.AnswerAcceptsOrDeclines : Prop :=
  (∀ (s : State) (p : Port) (b generation choice limit : Byte) (sz : Half) (n : ConduitNo) (ch : Channel),
      s.Awaits p .attached → b.toNat = n.val → s.channel n = some ch →
      (generation ≠ (s.conduit n).generation →
        exec (.answer p b generation choice limit sz) s =
          .next (s.replied p .answer .stale (some n) none [])) ∧
      (generation = (s.conduit n).generation →
        (ch.stage.flow? ≠ none →
          exec (.answer p b generation choice limit sz) s =
            .next (s.replied p .answer .wrongState (some n) none [])) ∧
        (ch.stage.flow? = none →
          (p ∉ ch.memberPorts →
            exec (.answer p b generation choice limit sz) s =
              .next (s.replied p .answer .notMember (some n) none [])) ∧
          (∀ e, ch.endpoint? p = some e →
            (e.answer ≠ .pending →
              exec (.answer p b generation choice limit sz) s =
                .next (s.replied p .answer .wrongState (some n) none [])) ∧
            (e.answer = .pending →
              (choice ≠ 0x01 ∧ choice ≠ 0x02) ∨
                (choice = 0x01 ∧ ¬ (1 ≤ limit.toNat ∧ limit.toNat ≤ 16 ∧ 1 ≤ sz.toNat ∧ sz.toNat ≤ 1024)) →
              exec (.answer p b generation choice limit sz) s =
                .next (s.replied p .answer .badArgument (some n) none [])))))) ∧
  (∀ (s : State) (p : Port) (b generation choice limit : Byte) (sz : Half) (n : ConduitNo) (ch answered : Channel)
      (d : Tick) (e : Endpoint),
      s.Awaits p .attached → b.toNat = n.val → s.channel n = some ch → ch.stage = .offered d →
      generation = (s.conduit n).generation → ch.endpoint? p = some e → e.answer = .pending →
      ch.producer ∉ ch.memberPorts → ch.memberPorts.Nodup →
      answered = { ch with members := ch.members.map (fun e =>
        if e.port = p then { e with answer := .accepted limit.toNat sz.toNat } else e) } →
      (choice = 0x01 → 1 ≤ limit.toNat → limit.toNat ≤ 16 → 1 ≤ sz.toNat → sz.toNat ≤ 1024 →
        ((∃ x ∈ ch.members, x.port ≠ p ∧ x.answer = .pending) →
          exec (.answer p b generation choice limit sz) s = .next (State.replied
            { s with conduits := s.withUse n (some answered) } p .answer .done (some n) none [])) ∧
        ((∀ x ∈ ch.members, x.port ≠ p → x.answer ≠ .pending) →
          exec (.answer p b generation choice limit sz) s = .next (State.replied
            { s with
              conduits := s.withUse n (some { answered with
                stage := .opened
                  { window := answered.smallestWindow
                    maxSize := answered.smallestSize
                    nextSequence := 0
                    outstanding := 0
                    windowLatch := false } })
              events := s.heard (fun q =>
                if q = ch.producer ∨ q ∈ ch.memberPorts then
                  [.offerResolved n (s.conduit n).generation (.opened answered.smallestWindow)]
                else []) }
            p .answer .done (some n) none []))) ∧
      (choice = 0x02 →
        exec (.answer p b generation choice limit sz) s = .next (State.replied
          { s with
            pool := s.pool.detach n
            conduits := s.withUse n none
            events := s.heard (fun q =>
              if q = ch.producer ∨ q ∈ ch.memberPorts ∧ q ≠ p then
                [.offerResolved n (s.conduit n).generation (.declined p)]
              else []) }
          p .answer .done (some n) none [])))

/-- CLOSE (R28, R38, R39, R41). A port that is not the present producer is refused NOT_PRODUCER. By the present producer
an OFFERED conduit is withdrawn, with WITHDRAWN to its members; an
OPEN conduit goes DRAINING with its latch clear and PRODUCER_CLOSED to its members, and ends at once with
CONDUIT_ENDED behind it where nothing is queued or held; a DRAINING conduit refuses WRONG_STATE. -/
def Obligations.CloseWithdrawsOrDrains : Prop :=
  (∀ (s : State) (p : Port) (b : Byte) (n : ConduitNo) (ch : Channel),
    s.Awaits p .attached → b.toNat = n.val → s.channel n = some ch →
    ¬ (ch.producer = p ∧ ch.producerPresent = true) →
    exec (.close p b) s = .next (s.replied p .close .notProducer (some n) none [])) ∧
  (∀ (s : State) (p : Port) (b : Byte) (n : ConduitNo) (ch : Channel),
    s.Awaits p .attached → b.toNat = n.val → s.channel n = some ch → ch.producer = p →
    ch.producerPresent = true → p ∉ ch.memberPorts → ch.memberPorts.Nodup →
    (∀ d, ch.stage = .offered d →
      exec (.close p b) s = .next (State.replied
        { s with
          pool := s.pool.detach n
          conduits := s.withUse n none
          events := s.heard (fun q =>
            if q ∈ ch.memberPorts then [.offerResolved n (s.conduit n).generation (.withdrawn p)] else []) }
        p .close .done (some n) none [])) ∧
    (∀ f, ch.stage = .opened f → (∃ e ∈ ch.members, e.queue ≠ [] ∨ e.holds ≠ []) →
      exec (.close p b) s = .next (State.replied
        { s with
          conduits := s.withUse n (some { ch with stage := .draining { f with windowLatch := false } })
          events := s.heard (fun q => if q ∈ ch.memberPorts then [.producerClosed n] else []) }
        p .close .done (some n) none [])) ∧
    (∀ f, ch.stage = .opened f → (∀ e ∈ ch.members, e.queue = [] ∧ e.holds = []) →
      exec (.close p b) s = .next (State.replied
        { s with
          pool := s.pool.detach n
          conduits := s.withUse n none
          events := s.heard (fun q =>
            (if q ∈ ch.memberPorts then [.producerClosed n] else []) ++
            if q = p ∨ q ∈ ch.memberPorts then [.conduitEnded n (s.conduit n).generation .drained] else []) }
        p .close .done (some n) none [])) ∧
    (∀ f, ch.stage = .draining f → exec (.close p b) s = .next (s.replied p .close .wrongState (some n) none [])))

/-- LEAVE. A port with no endpoint in the conduit is refused NOT_MEMBER, and a member of an OFFERED conduit WRONG_STATE
(R28, R42). By a member of an OPEN or DRAINING conduit (R42, R43, R44) it is DONE and removes the member. The present
producer hears CONSUMER_GONE with reason LEFT, then WINDOW_OPEN where the latch is set and the freeings bring
outstanding below the window, then CONDUIT_ENDED where the conduit ends; the remaining members hear CONDUIT_ENDED where
it ends, and every other port, the leaving one too, hears nothing. The conduit ends with its last member, reason
NO_CONSUMERS, or where it is DRAINING and the others queue and hold nothing, reason DRAINED; its generation stays.
Otherwise it keeps all but the endpoint, outstanding, which falls by the descriptors freed, and a latch that reopened.
Each LIVE descriptor loses the queue entry and the hold the member had on it and is FREE where nothing else refers to
it; FILLING ones stay; all of them lose the conduit where it ends; and freed handles join the free-descriptor list
behind those that are in it, with the pool's accounts kept. -/
def Obligations.LeaveRemovesTheMember : Prop :=
  (∀ (s : State) (p : Port) (b : Byte), s.Awaits p .attached → s.ChecksMember p b .leave (.leave p b)) ∧
  (∀ (s : State) (p : Port) (b : Byte) (n : ConduitNo) (ch : Channel) (e : Endpoint) (f : Flow) (freed : Nat)
      (last ended reopened : Prop),
    ConduitLaw s → ReferenceLaw s → s.Awaits p .attached → b.toNat = n.val → s.channel n = some ch →
    ch.stage.flow? = some f → ch.endpoint? p = some e →
    freed = s.freedBy (fun h => e.queue.count h) (fun h => e.holds.countP (fun d => d.handle == h)) →
    (last ↔ ∀ x ∈ ch.members, x.port = p) →
    (ended ↔ ∀ x ∈ ch.members, x.port ≠ p → ch.stage = .draining f ∧ x.queue = [] ∧ x.holds = []) →
    (reopened ↔ f.windowLatch = true ∧ 1 ≤ freed ∧ f.outstanding - freed < f.window) →
    ∃ t : State, exec (.leave p b) s = .next (t.replied p .leave .done (some n) none []) ∧
      t.ports = s.ports ∧ t.attention = s.attention ∧ t.partition = s.partition ∧ t.time = s.time ∧
      t.choices = s.choices ∧ t.pending = s.pending ∧
      (∀ m, m ≠ n → t.conduit m = s.conduit m) ∧ (t.conduit n).generation = (s.conduit n).generation ∧
      (ended → t.channel n = none) ∧
      (¬ ended → ∃ latch, t.channel n = some { ch with
          members := ch.members.filter (fun x => x.port != p)
          stage := ch.stage.mapFlow (fun f => { f with outstanding := f.outstanding - freed, windowLatch := latch }) } ∧
        (latch = true ↔ f.windowLatch = true ∧ ¬ reopened)) ∧
      (∀ h, s.segment h = none → t.segment h = none) ∧
      (∀ h g, s.segment h = some g → g.stage = .filling →
        t.segment h = some (g.detachedFrom (fun m => m == n && (t.channel n).isNone))) ∧
      (∀ h g q r, s.segment h = some g → g.stage = .live q r →
        ((r.queue - e.queue.count h) + (r.hold - e.holds.countP (fun d => d.handle == h)) + r.transfer = 0 →
          t.segment h = none) ∧
        ((r.queue - e.queue.count h) + (r.hold - e.holds.countP (fun d => d.handle == h)) + r.transfer ≠ 0 →
          t.segment h = some (Segment.detachedFrom { g with
            stage := .live q
              { queue := r.queue - e.queue.count h
                hold := r.hold - e.holds.countP (fun d => d.handle == h)
                transfer := r.transfer } } (fun m => m == n && (t.channel n).isNone)))) ∧
      s.pool.freeList <+: t.pool.freeList ∧ (AccountingLaw s → AccountingLaw t) ∧
      (ch.producerPresent = true → ¬ ended → ¬ reopened →
        t.events.get ch.producer = s.hears ch.producer [.consumerGone n p .left]) ∧
      (ch.producerPresent = true → ¬ ended → reopened →
        t.events.get ch.producer = s.hears ch.producer [.consumerGone n p .left, .windowOpen n]) ∧
      (ch.producerPresent = true → ended → ¬ reopened → ∃ reason,
        t.events.get ch.producer = s.hears ch.producer
          [.consumerGone n p .left, .conduitEnded n (s.conduit n).generation reason] ∧
        (last → reason = .noConsumers) ∧ (¬ last → reason = .drained)) ∧
      (ch.producerPresent = true → ended → reopened → ∃ reason,
        t.events.get ch.producer = s.hears ch.producer
          [.consumerGone n p .left, .windowOpen n, .conduitEnded n (s.conduit n).generation reason] ∧
        (last → reason = .noConsumers) ∧ (¬ last → reason = .drained)) ∧
      (ch.producerPresent = false → ¬ reopened → t.events.get ch.producer = s.events.get ch.producer) ∧
      (∀ x ∈ ch.members, x.port ≠ p → t.events.get x.port = s.hears x.port
        (if t.channel n = none then [.conduitEnded n (s.conduit n).generation .drained] else [])) ∧
      (∀ q, q ≠ ch.producer → (q = p ∨ q ∉ ch.memberPorts) → t.events.get q = s.events.get q))

/-- FLUSH. A port that is not the present producer is refused NOT_PRODUCER, and the producer of an OFFERED conduit
WRONG_STATE (R28, R80). By the present producer of an OPEN or DRAINING conduit (R62, R80, R81): every member's delivery
queue is emptied, its holds and lapsed list are untouched, each LIVE descriptor loses the queue entries it had and is
FREE where nothing else refers to it, and FILLING ones stay; outstanding falls by the descriptors freed, and a latch
that reopens clears; a DRAINING conduit ends where nothing is held. Each member whose queue was not empty hears FLUSHED
with its count, and CONDUIT_ENDED behind it where the conduit ends; the producer hears WINDOW_OPEN where the latch is set
and the freeings bring outstanding below the window, and CONDUIT_ENDED behind it where the conduit ends; every other
port hears nothing. The reply carries the total. -/
def Obligations.FlushEmptiesTheDeliveryQueues : Prop :=
  (∀ (s : State) (p : Port) (b : Byte) (n : ConduitNo) (ch : Channel),
    s.Awaits p .attached → b.toNat = n.val → s.channel n = some ch →
    (¬ (ch.producer = p ∧ ch.producerPresent = true) →
      exec (.flush p b) s = .next (s.replied p .flush .notProducer (some n) none [])) ∧
    (ch.producer = p → ch.producerPresent = true → ∀ d, ch.stage = .offered d →
      exec (.flush p b) s = .next (s.replied p .flush .wrongState (some n) none []))) ∧
  (∀ (s : State) (p : Port) (b : Byte) (n : ConduitNo) (ch : Channel) (f : Flow) (freed : Nat)
      (ended reopened : Prop),
    ConduitLaw s → ReferenceLaw s → s.Awaits p .attached → b.toNat = n.val → s.channel n = some ch →
    ch.presentProducer p = true → ch.stage.flow? = some f →
    freed = s.freedBy (fun h => (ch.members.map (fun e => e.queue.count h)).sum) (fun _ => 0) →
    (ended ↔ ch.stage = .draining f ∧ ∀ e ∈ ch.members, e.holds = []) →
    (reopened ↔ f.windowLatch = true ∧ 1 ≤ freed ∧ f.outstanding - freed < f.window) →
    ∃ t : State, exec (.flush p b) s = .next (t.replied p .flush .done (some n) none
        [byteOf (ch.members.map (fun e => e.queue.length)).sum]) ∧
      t.ports = s.ports ∧ t.attention = s.attention ∧ t.partition = s.partition ∧ t.time = s.time ∧
      t.choices = s.choices ∧ t.pending = s.pending ∧
      (∀ m, m ≠ n → t.conduit m = s.conduit m) ∧ (t.conduit n).generation = (s.conduit n).generation ∧
      (ended → t.channel n = none) ∧
      (¬ ended → ∃ latch, t.channel n = some { ch with
          members := ch.members.map (fun e => { e with queue := [] })
          stage := ch.stage.mapFlow (fun f => { f with outstanding := f.outstanding - freed, windowLatch := latch }) } ∧
        (latch = true ↔ f.windowLatch = true ∧ ¬ reopened)) ∧
      (∀ h, s.segment h = none → t.segment h = none) ∧
      (∀ h g, s.segment h = some g → g.stage = .filling →
        t.segment h = some (g.detachedFrom (fun m => m == n && (t.channel n).isNone))) ∧
      (∀ h g q r, s.segment h = some g → g.stage = .live q r → g.conduit = some n →
        (r.hold + r.transfer = 0 → t.segment h = none) ∧
        (r.hold + r.transfer ≠ 0 → t.segment h = some (Segment.detachedFrom
          { g with stage := .live q { r with queue := 0 } } (fun m => m == n && (t.channel n).isNone)))) ∧
      (∀ h g, s.segment h = some g → g.conduit ≠ some n → t.segment h = some g) ∧
      s.pool.freeList <+: t.pool.freeList ∧ (AccountingLaw s → AccountingLaw t) ∧
      (∀ e ∈ ch.members, t.events.get e.port = s.hears e.port
        ((if e.queue = [] then [] else [.flushed n e.queue.length]) ++
          if t.channel n = none then [.conduitEnded n (s.conduit n).generation .drained] else [])) ∧
      (¬ reopened → t.events.get p = s.hears p
        (if t.channel n = none then [.conduitEnded n (s.conduit n).generation .drained] else [])) ∧
      (reopened → t.events.get p = s.hears p ([.windowOpen n] ++
        if t.channel n = none then [.conduitEnded n (s.conduit n).generation .drained] else [])) ∧
      (∀ q, q ≠ p → q ∉ ch.memberPorts → t.events.get q = s.events.get q))

/-! ### Posting and taking -/

/-- POST on a slot in use. First the refusals in the order of R51: NOT_PRODUCER, WRONG_STATE, BAD_ARGUMENT, TOO_LONG,
WINDOW_FULL, SEQ_IN_USE, OVER_QUOTA; a refused POST changes nothing but the port's record and transaction, with one
exception: WINDOW_FULL sets the window latch (R61). Then, with every check passed (R7, R52, R162): the handle at the
head of the free-descriptor list becomes FILLING with the declared length, its blocks and itself charged to the
producer; outstanding rises by one; and the payload phase begins with the handle in the outcome record. -/
def Obligations.PostBeginsAFill : Prop :=
  (∀ (s : State) (p : Port) (b : Byte) (len : Half) (n : ConduitNo) (ch : Channel),
      s.Awaits p .attached → b.toNat = n.val → s.channel n = some ch →
      (¬ (ch.producer = p ∧ ch.producerPresent = true) →
        exec (.post p b len) s = .next (s.replied p .post .notProducer (some n) none [])) ∧
      (ch.producer = p → ch.producerPresent = true →
        ((∀ f, ch.stage ≠ .opened f) →
          exec (.post p b len) s = .next (s.replied p .post .wrongState (some n) none [])) ∧
        (∀ f, ch.stage = .opened f →
          (len = 0 → exec (.post p b len) s = .next (s.replied p .post .badArgument (some n) none [])) ∧
          (len ≠ 0 → f.maxSize < len.toNat →
            exec (.post p b len) s = .next (s.replied p .post .tooLong (some n) none [])) ∧
          (len ≠ 0 → len.toNat ≤ f.maxSize →
            (f.window ≤ f.outstanding →
              exec (.post p b len) s = .next (State.replied
                { s with
                  conduits := s.withUse n (some { ch with stage := .opened { f with windowLatch := true } }) }
                p .post .windowFull (some n) none [])) ∧
            (f.outstanding < f.window →
              (s.sequenceInUse n f.nextSequence = true →
                exec (.post p b len) s = .next (s.replied p .post .seqInUse (some n) none [])) ∧
              (s.sequenceInUse n f.nextSequence = false →
                (s.partition.quotas.get p).descriptors < s.pool.chargedDescriptors.get p + 1 ∨
                  (s.partition.quotas.get p).blocks < s.pool.chargedBlocks.get p + (len.toNat + 127) / 128 →
                exec (.post p b len) s = .next (s.replied p .post .overQuota (some n) none []))))))) ∧
  (∀ (s : State) (p : Port) (b : Byte) (len : Half) (n : ConduitNo) (ch : Channel) (f : Flow) (h : Handle)
      (others : List Handle),
      s.Awaits p .attached → b.toNat = n.val → s.channel n = some ch → ch.producer = p →
      ch.producerPresent = true → ch.stage = .opened f → len ≠ 0 → len.toNat ≤ f.maxSize →
      f.outstanding < f.window → s.sequenceInUse n f.nextSequence = false →
      s.pool.chargedDescriptors.get p + 1 ≤ (s.partition.quotas.get p).descriptors →
      s.pool.chargedBlocks.get p + (len.toNat + 127) / 128 ≤ (s.partition.quotas.get p).blocks →
      s.pool.freeList = h :: others →
      exec (.post p b len) s = .next
        { s with
          ports := s.ports.set p { (s.port p).replied .post .done (some n) (some h) [] with
            transaction := (s.port p).transaction.map (fun x =>
              { x with
                phase := .payload
                byteCount := 4
                replyPosition := 4
                reply := [0x00] }) }
          conduits := s.withUse n (some { ch with stage := .opened { f with outstanding := f.outstanding + 1 } })
          pool :=
            { freeBlocks := s.pool.freeBlocks - (len.toNat + 127) / 128
              descriptors := s.pool.descriptors.set h (some
                { producer := p, conduit := some n, length := len.toNat, payload := [], stage := .filling })
              freeList := others
              chargedBlocks :=
                s.pool.chargedBlocks.set p (s.pool.chargedBlocks.get p + (len.toNat + 127) / 128)
              chargedDescriptors :=
                s.pool.chargedDescriptors.set p (s.pool.chargedDescriptors.get p + 1) } })

/-- FILL_COMPLETION (R8, R9, R10, R53 to R57, R64, R162), by the count of payload bytes received when select is released.
Fewer than the length: the descriptor is freed, SHORT. Enough, on a conduit with members: LIVE with the conduit's next
sequence, the first length bytes its payload, queued to every member, ARRIVED to those whose queue was empty; DONE, or
EXCESS where there were more. Enough, with no conduit or no member left: freed, DISCARDED. -/
def Obligations.FillCompletionDeliversOrFrees : Prop :=
  ∀ (s : State) (p : Port) (bytes : List Byte) (h : Handle) (g : Segment) (x : Transaction) (count : Nat),
    s.fillHandle? p = some h → s.segment h = some g → (s.port p).transaction = some x →
    count = x.payloadCount + bytes.length → 4 ≤ x.byteCount →
    (count < g.length →
      exec (.fillCompletion p bytes) s = .next ((s.freeDescriptor h).setPort p { s.port p with
        outcome := { (s.port p).outcome with outcome := .short }
        transaction := none })) ∧
    (g.length ≤ count →
      (∀ n ch f, g.conduit = some n → s.channel n = some ch → ch.stage.flow? = some f → ch.members = []) →
      exec (.fillCompletion p bytes) s = .next ((s.freeDescriptor h).setPort p { s.port p with
        outcome := { (s.port p).outcome with outcome := .discarded }
        transaction := none })) ∧
    (∀ n ch f, g.length ≤ count → g.conduit = some n → s.channel n = some ch → ch.stage.flow? = some f →
      ch.members ≠ [] → ch.memberPorts.Nodup →
      exec (.fillCompletion p bytes) s = .next
        { s with
          ports := s.ports.set p { s.port p with
            outcome := { (s.port p).outcome with outcome := if count = g.length then .done else .excess }
            transaction := none }
          pool := { s.pool with
            descriptors := s.pool.descriptors.set h (some { g with
              payload := (g.payload ++ bytes).take g.length
              stage := .live f.nextSequence { queue := ch.members.length, hold := 0, transfer := 0 } }) }
          conduits := s.withUse n (some { ch with
            members := ch.members.map (fun e => { e with queue := e.queue ++ [h] })
            stage := ch.stage.mapFlow (fun f => { f with nextSequence := f.nextSequence + 1 }) })
          events := s.heard (fun q =>
            if ch.members.any (fun e => e.port == q && e.queue.isEmpty) then [.arrived n] else []) })

/-- TAKE. NOT_MEMBER and WRONG_STATE as R28 and R67 give them. By a member with a segment queued and fewer than 4 holds (R65, R67, R68, R75, R180): the head of the delivery
queue moves to the tail of the hold set, with a deadline where the conduit has a hold limit; the descriptor loses a
queue reference and gains a hold and a transfer reference; and the reply carries sequence, handle and length, with the
payload behind them from position 10 and zeros after it (R2, R163). An empty queue refuses EMPTY, a full hold set
HOLDS_FULL. -/
def Obligations.TakeMovesTheHeadToTheHolds : Prop :=
  (∀ (s : State) (p : Port) (b : Byte), s.Awaits p .attached → s.ChecksMember p b .take (.take p b)) ∧
  (∀ (s : State) (p : Port) (b : Byte) (n : ConduitNo) (ch : Channel) (f : Flow) (e : Endpoint),
    s.Awaits p .attached → b.toNat = n.val → s.channel n = some ch → ch.stage.flow? = some f →
    ch.endpoint? p = some e →
    (e.queue = [] → exec (.take p b) s = .next (s.replied p .take .empty (some n) none [])) ∧
    (e.queue ≠ [] → 4 ≤ e.holds.length →
      exec (.take p b) s = .next (s.replied p .take .holdsFull (some n) none [])) ∧
    (∀ h rest g q r, e.queue = h :: rest → e.holds.length < 4 → s.segment h = some g → g.stage = .live q r →
      ch.memberPorts.Nodup →
      exec (.take p b) s = .next (State.replied
        { s with
          conduits := s.withUse n (some { ch with
            members := ch.members.map (fun x =>
              if x.port = p then
                { x with
                  queue := rest
                  holds := x.holds ++
                    [{ sequence := q, handle := h,
                       deadline := if ch.holdLimit = 0 then none
                         else some (s.time.counter + BitVec.ofNat 32 (ch.holdLimit + 1)) }] }
              else x) })
          pool := { s.pool with
            descriptors := s.pool.descriptors.set h (some { g with
              stage := .live q { queue := r.queue - 1, hold := r.hold + 1, transfer := r.transfer + 1 } }) } }
        p .take .done (some n) (some h) (bigEndian q ++ [byteOf h.val] ++ halfBytes g.length)) ∧
      (g.payload.length = g.length → ∀ t, exec (.take p b) s = .next t → t.ShiftsPayload p 10 g)))

/-- TAKE_ANY with an eligible endpoint (R69, R70): an URGENT conduit before a ROUTINE one, and within a class the first
number above the rotation point, wrapping at 23. It takes there as TAKE does, replies with the conduit in front, shifts
out the payload from position 11 and zeros after it (R2, R163), and moves the rotation point to the conduit. -/
def Obligations.TakeAnyTakesByClassAndRotation : Prop :=
  ∀ (s : State) (p : Port) (n : ConduitNo) (ch : Channel) (f : Flow) (e : Endpoint) (h : Handle)
    (rest : List Handle) (g : Segment) (q : Half) (r : Refs),
    s.Awaits p .attached → s.channel n = some ch → ch.stage.flow? = some f → ch.endpoint? p = some e →
    e.queue = h :: rest → e.holds.length < 4 → s.segment h = some g → g.stage = .live q r →
    ch.memberPorts.Nodup →
    (∀ m, s.eligible p .urgent m = true → ch.cls = .urgent ∧
      (n.val + 23 - (s.port p).rotation.val) % 24 ≤ (m.val + 23 - (s.port p).rotation.val) % 24) →
    (∀ m, s.eligible p .routine m = true → ch.cls = .urgent ∨
      (n.val + 23 - (s.port p).rotation.val) % 24 ≤ (m.val + 23 - (s.port p).rotation.val) % 24) →
    exec (.takeAny p) s = .next (State.replied
      { s with
        ports := s.ports.set p { s.port p with rotation := n }
        conduits := s.withUse n (some { ch with
          members := ch.members.map (fun x =>
            if x.port = p then
              { x with
                queue := rest
                holds := x.holds ++
                  [{ sequence := q, handle := h,
                     deadline := if ch.holdLimit = 0 then none
                       else some (s.time.counter + BitVec.ofNat 32 (ch.holdLimit + 1)) }] }
            else x) })
        pool := { s.pool with
          descriptors := s.pool.descriptors.set h (some { g with
            stage := .live q { queue := r.queue - 1, hold := r.hold + 1, transfer := r.transfer + 1 } }) } }
      p .takeAny .done (some n) (some h) ([byteOf n.val] ++ bigEndian q ++ [byteOf h.val] ++ halfBytes g.length)) ∧
    (g.payload.length = g.length → ∀ t, exec (.takeAny p) s = .next t → t.ShiftsPayload p 11 g)

/-- R71: with no eligible endpoint a TAKE_ANY is refused, HOLDS_FULL where one of the port's endpoints in an OPEN or
DRAINING conduit has a delivery queue that is not empty, and EMPTY otherwise; the rotation point stays. -/
def Obligations.TakeAnyRefusesWithoutAnEligibleEndpoint : Prop :=
  ∀ (s : State) (p : Port), s.Awaits p .attached →
    (∀ n ch e, s.channel n = some ch → ch.stage.flow? ≠ none → ch.endpoint? p = some e → e.queue ≠ [] →
      4 ≤ e.holds.length) →
    ((∃ n ch e, s.channel n = some ch ∧ ch.stage.flow? ≠ none ∧ ch.endpoint? p = some e ∧ e.queue ≠ []) →
      exec (.takeAny p) s = .next (s.replied p .takeAny .holdsFull none none [])) ∧
    ((∀ n ch e, s.channel n = some ch → ch.stage.flow? ≠ none → ch.endpoint? p = some e → e.queue = []) →
      exec (.takeAny p) s = .next (s.replied p .takeAny .empty none none []))

/-- PEEK at the head of the delivery queue (R73) and READ_HELD of a hold (R74): one transfer reference is placed, queue
and holds stay as they are, and the reply carries sequence, handle and length, with the payload behind them from
position 10 and zeros after it (R2, R163). NOT_MEMBER and WRONG_STATE come first, as R28, R73 and R74 give them. An empty queue refuses EMPTY, a sequence
no hold carries UNKNOWN_SEQ. -/
def Obligations.PeekAndReadHeldPlaceOnlyATransfer : Prop :=
  (∀ (s : State) (p : Port) (b : Byte) (wanted : Half), s.Awaits p .attached →
    s.ChecksMember p b .peek (.peek p b) ∧ s.ChecksMember p b .readHeld (.readHeld p b wanted)) ∧
  (∀ (s : State) (p : Port) (b : Byte) (n : ConduitNo) (ch : Channel) (f : Flow) (e : Endpoint),
    s.Awaits p .attached → b.toNat = n.val → s.channel n = some ch → ch.stage.flow? = some f →
    ch.endpoint? p = some e →
    (e.queue = [] → exec (.peek p b) s = .next (s.replied p .peek .empty (some n) none [])) ∧
    (∀ h rest g q r, e.queue = h :: rest → s.segment h = some g → g.stage = .live q r →
      exec (.peek p b) s = .next (State.replied
        (s.setSegment h (some { g with stage := .live q { r with transfer := r.transfer + 1 } }))
        p .peek .done (some n) (some h) (bigEndian q ++ [byteOf h.val] ++ halfBytes g.length)) ∧
      (g.payload.length = g.length → ∀ t, exec (.peek p b) s = .next t → t.ShiftsPayload p 10 g)) ∧
    (∀ wanted, (∀ d ∈ e.holds, d.sequence ≠ wanted) →
      exec (.readHeld p b wanted) s = .next (s.replied p .readHeld .unknownSeq (some n) none [])) ∧
    (∀ wanted d g q r, e.holds.find? (fun d => d.sequence == wanted) = some d → s.segment d.handle = some g →
      g.stage = .live q r →
      exec (.readHeld p b wanted) s = .next (State.replied
        (s.setSegment d.handle (some { g with stage := .live q { r with transfer := r.transfer + 1 } }))
        p .readHeld .done (some n) (some d.handle) (bigEndian q ++ [byteOf d.handle.val] ++ halfBytes g.length)) ∧
      (g.payload.length = g.length → ∀ t, exec (.readHeld p b wanted) s = .next t → t.ShiftsPayload p 10 g)))

/-- RELEASE (R77, R78, R79). NOT_MEMBER and WRONG_STATE as R28 and R78 give them. A hold with the sequence is removed with its deadline, the hold reference goes by the
release claim, and a DRAINING conduit is checked for its end; a lapsed sequence leaves the lapsed list with LAPSED; any
other is UNKNOWN_SEQ. -/
def Obligations.ReleaseDropsTheHold : Prop :=
  (∀ (s : State) (p : Port) (b : Byte) (wanted : Half), s.Awaits p .attached →
    s.ChecksMember p b .release (.release p b wanted)) ∧
  (∀ (s : State) (p : Port) (b : Byte) (wanted : Half) (n : ConduitNo) (ch : Channel) (f : Flow) (e : Endpoint),
    s.Awaits p .attached → b.toNat = n.val → s.channel n = some ch → ch.stage.flow? = some f →
    ch.endpoint? p = some e → ch.memberPorts.Nodup →
    (∀ d dropped, e.holds.find? (fun d => d.sequence == wanted) = some d →
      dropped = { s with
        conduits := s.withUse n (some { ch with
          members := ch.members.map (fun x : Endpoint => if x.port = p then { e with holds := e.holds.erase d } else x) }) } →
      exec (.release p b wanted) s = .next
        (((dropped.claim .release d.handle).drainCheck n).replied p .release .done (some n) none [])) ∧
    ((∀ d ∈ e.holds, d.sequence ≠ wanted) → wanted ∈ e.lapsed →
      exec (.release p b wanted) s = .next (State.replied
        { s with
          conduits := s.withUse n (some { ch with
            members := ch.members.map (fun x =>
              if x.port = p then { e with lapsed := e.lapsed.erase wanted } else x) }) }
        p .release .lapsed (some n) none [])) ∧
    ((∀ d ∈ e.holds, d.sequence ≠ wanted) → wanted ∉ e.lapsed →
      exec (.release p b wanted) s = .next (s.replied p .release .unknownSeq (some n) none [])))

/-- TRANSFER_END (R149, R163, R164): the release after an accepted read presents the transfer end claim for the
descriptor of the outcome record, whose handle field becomes absent; a release in the arguments phase is
TRUNCATED with the code received (R152); the release of any other transaction only ends it. In the payload phase it is the completion of the fill with the bytes received so far
(notes/assumptions/4.md). -/
def Obligations.SelectReleaseEndsTheTransfer : Prop :=
  ∀ (s : State) (p : Port) (x : Transaction), (s.port p).transaction = some x →
    (∀ h, s.transferHandle? p = some h →
      exec (.transferEnd p) s = .next ((s.claim .transferEnd h).setPort p { s.port p with
        outcome := { (s.port p).outcome with handle := none }
        transaction := none })) ∧
    (s.transferHandle? p = none → s.fillHandle? p = none → (∀ code received, x.phase ≠ .arguments code received) →
      exec (.transferEnd p) s = .next (s.setPort p { s.port p with transaction := none })) ∧
    (∀ code received, x.phase = .arguments code received →
      exec (.transferEnd p) s = .next (s.setPort p { s.port p with
        outcome := { outcome := .truncated, command := code, conduit := none, handle := none }
        transaction := none })) ∧
    (∀ h g, s.fillHandle? p = some h → s.segment h = some g → g.payload = g.payload.take g.length →
      exec (.transferEnd p) s = exec (.fillCompletion p []) s)

/-! ### The Attention Unit -/

/-- ATTEND (R103, R104): the checks in their order; then the entry joins the tail of the target's attention queue and the
pair is PENDING. No event is sent. -/
def Obligations.AttendQueuesTheRequest : Prop :=
  ∀ (s : State) (p : Port) (target vector : Byte) (argument : Half), s.Awaits p .attached →
    (3 < target.toNat ∨ target.toNat = p.toNat ∨ 63 < vector.toNat →
      exec (.attend p target vector argument) s = .next (s.replied p .attend .badArgument none none [])) ∧
    (∀ t : Port, target.toNat = t.toNat → t ≠ p → vector.toNat ≤ 63 →
      (¬ s.Attached t →
        exec (.attend p target vector argument) s = .next (s.replied p .attend .peerAbsent none none [])) ∧
      (s.Attached t → s.attention.pair p t = .pending →
        exec (.attend p target vector argument) s = .next (s.replied p .attend .busy none none [])) ∧
      (s.Attached t → s.attention.pair p t ≠ .pending →
        exec (.attend p target vector argument) s = .next (State.replied
          { s with attention :=
            { queues := s.attention.queues.set t (s.attention.queues.get t ++
                [{ source := p, vector := vector.toNat, argument }])
              pairs := s.attention.pairs.set p ((s.attention.pairs.get p).set t .pending) } }
          p .attend .done none none [])))

/-- ACCEPT_ATTN (R105): the head entry is removed, its pair is TAKEN, its source hears ATTN_TAKEN, and the reply carries
source, vector and argument. An empty queue refuses EMPTY and changes nothing. -/
def Obligations.AcceptAttnTakesTheHead : Prop :=
  ∀ (s : State) (p : Port), s.Awaits p .attached →
    (s.attention.queues.get p = [] →
      exec (.acceptAttn p) s = .next (s.replied p .acceptAttn .empty none none [])) ∧
    (∀ source vector argument rest,
      s.attention.queues.get p = { source, vector, argument } :: rest →
      exec (.acceptAttn p) s = .next (State.replied
        { s with
          attention :=
            { queues := s.attention.queues.set p rest
              pairs := s.attention.pairs.set source ((s.attention.pairs.get source).set p .taken) }
          events := s.heard (fun q => if q = source then [.attnTaken p vector] else []) }
        p .acceptAttn .done none none ([byteOf source.toNat, byteOf vector] ++ bigEndian argument)))

/-- WITHDRAW_ATTN (R107), by the pair state: PENDING removes the entry wherever it stands, DONE; TAKEN is answered
ALREADY_TAKEN; both leave NONE; NONE is answered NO_PENDING with no effect. A target above 3, or the port itself, is
refused BAD_ARGUMENT. No event is sent. -/
def Obligations.WithdrawAttnEndsTheRequest : Prop :=
  ∀ (s : State) (p : Port) (target : Byte), s.Awaits p .attached →
    (3 < target.toNat ∨ target.toNat = p.toNat →
      exec (.withdrawAttn p target) s = .next (s.replied p .withdrawAttn .badArgument none none [])) ∧
    (∀ t : Port, target.toNat = t.toNat → t ≠ p →
      (s.attention.pair p t = .pending →
        exec (.withdrawAttn p target) s = .next (State.replied
          { s with attention :=
            { queues := s.attention.queues.set t
                ((s.attention.queues.get t).filter (fun e => e.source != p))
              pairs := s.attention.pairs.set p ((s.attention.pairs.get p).set t .none) } }
          p .withdrawAttn .done none none [])) ∧
      (s.attention.pair p t = .taken →
        exec (.withdrawAttn p target) s = .next (State.replied
          { s with attention := { s.attention with
            pairs := s.attention.pairs.set p ((s.attention.pairs.get p).set t .none) } }
          p .withdrawAttn .alreadyTaken none none [])) ∧
      (s.attention.pair p t = .none →
        exec (.withdrawAttn p target) s = .next (s.replied p .withdrawAttn .noPending none none [])))

/-! ### The Partition Unit -/

/-- PROPOSE. First its refusals in the order of R122: BUSY, BAD_ARGUMENT for a quota out of range or a sum above the whole,
BELOW_USAGE; none creates a proposal or advances the counter. Then, with every check passed (R119, R120, R121, R123):
the proposal takes the next id (255 is followed by 1), the quotas, ACCEPT for the proposer and PENDING for every other
ATTACHED port, and its deadline; the other voters hear PARTITION_PROPOSED; the reply carries the id. With no other
voter it is adopted at once: the quotas are the active record, the generation advances, and the proposer hears
PARTITION_RESOLVED with ADOPTED. -/
def Obligations.ProposeOpensTheVote : Prop :=
  (∀ (s : State) (p : Port) (quotas : PerPort QuotaArgument), s.Awaits p .attached →
      (s.partition.proposal ≠ none →
        exec (.propose p quotas) s = .next (s.replied p .propose .busy none none [])) ∧
      (s.partition.proposal = none →
        ((∃ v, 512 < (quotas.get v).blocks.toNat ∨ 256 < (quotas.get v).descriptors.toNat ∨
            24 < (quotas.get v).conduits.toNat) ∨
          512 < (quotas.map (fun x => x.blocks.toNat)).sum ∨
          256 < (quotas.map (fun x => x.descriptors.toNat)).sum ∨
          24 < (quotas.map (fun x => x.conduits.toNat)).sum →
          exec (.propose p quotas) s = .next (s.replied p .propose .badArgument none none [])) ∧
        ((∀ v, (quotas.get v).blocks.toNat ≤ 512 ∧ (quotas.get v).descriptors.toNat ≤ 256 ∧
            (quotas.get v).conduits.toNat ≤ 24) →
          (quotas.map (fun x => x.blocks.toNat)).sum ≤ 512 → (quotas.map (fun x => x.descriptors.toNat)).sum ≤ 256 →
          (quotas.map (fun x => x.conduits.toNat)).sum ≤ 24 →
          (∃ v, (quotas.get v).blocks.toNat < s.pool.chargedBlocks.get v ∨
            (quotas.get v).descriptors.toNat < s.pool.chargedDescriptors.get v ∨
            (quotas.get v).conduits.toNat < s.chargedConduits v) →
          exec (.propose p quotas) s = .next (s.replied p .propose .belowUsage none none [])))) ∧
  (∀ (s : State) (p : Port) (quotas : PerPort QuotaArgument) (q : PerPort Quota) (id : Byte),
      s.Awaits p .attached → s.partition.proposal = none →
      q = quotas.map (fun x =>
        { blocks := x.blocks.toNat, descriptors := x.descriptors.toNat, conduits := x.conduits.toNat }) →
      id = (if s.partition.idCounter = 255 then 1 else s.partition.idCounter + 1) →
      (∀ v, (q.get v).blocks ≤ 512 ∧ (q.get v).descriptors ≤ 256 ∧ (q.get v).conduits ≤ 24) →
      (q.map Quota.blocks).sum ≤ 512 → (q.map Quota.descriptors).sum ≤ 256 → (q.map Quota.conduits).sum ≤ 24 →
      (∀ v, s.pool.chargedBlocks.get v ≤ (q.get v).blocks ∧
        s.pool.chargedDescriptors.get v ≤ (q.get v).descriptors ∧ s.chargedConduits v ≤ (q.get v).conduits) →
      ((∃ v, v ≠ p ∧ s.Attached v) →
        exec (.propose p quotas) s = .next (State.replied
          { s with
            partition := { s.partition with
              proposal := some
                { id
                  proposer := p
                  quotas := q
                  votes := PerPort.ofFn (fun v =>
                    if v = p then .accept else if s.Attached v then .pending else .none)
                  deadline := s.time.counter + 251 }
              idCounter := id }
            events := s.heard (fun v => if v ≠ p ∧ s.Attached v then [.partitionProposed id p] else []) }
          p .propose .done none none [id])) ∧
      ((∀ v, v ≠ p → ¬ s.Attached v) →
        exec (.propose p quotas) s = .next (State.replied
          { s with
            partition :=
              { quotas := q
                generation := s.partition.generation + 1
                proposal := none
                idCounter := id }
            events := s.heard (fun v =>
              if v = p then [.partitionResolved id .adopted (s.partition.generation + 1)] else []) }
          p .propose .done none none [id])))

/-- VOTE with ACCEPT by a PENDING voter (R125, R120, R121): the vote is recorded and nothing is sent while another is
PENDING; the last one makes the adoption check, and the proposal is resolved ADOPTED with its quotas active and the
next generation, or FAILED_USAGE with the lowest-numbered port whose charges do not fit and the record unchanged. The
refusals come in the order of R125. -/
def Obligations.VoteAcceptsTheProposal : Prop :=
  ∀ (s : State) (p : Port) (id choice : Byte), s.Awaits p .attached →
    (s.partition.proposal = none → exec (.vote p id choice) s = .next (s.replied p .vote .noProposal none none [])) ∧
    (∀ pr, s.partition.proposal = some pr →
      (id ≠ pr.id → exec (.vote p id choice) s = .next (s.replied p .vote .stale none none [])) ∧
      (id = pr.id → pr.votes.get p ≠ .pending →
        exec (.vote p id choice) s = .next (s.replied p .vote .wrongState none none [])) ∧
      (id = pr.id → pr.votes.get p = .pending → choice ≠ 0x01 → choice ≠ 0x02 →
        exec (.vote p id choice) s = .next (s.replied p .vote .badArgument none none [])) ∧
      (id = pr.id → pr.votes.get p = .pending → choice = 0x01 →
        ((∃ v, v ≠ p ∧ pr.votes.get v = .pending) →
          exec (.vote p id choice) s = .next (State.replied
            { s with partition := { s.partition with
              proposal := some { pr with votes := pr.votes.set p .accept } } }
            p .vote .done none none [])) ∧
        ((∀ v, v ≠ p → pr.votes.get v ≠ .pending) →
          ((∀ v, s.usageWithin pr.quotas v = true) →
            exec (.vote p id choice) s = .next (State.replied
              { s with
                partition := { s.partition with
                  quotas := pr.quotas
                  generation := s.partition.generation + 1
                  proposal := none }
                events := s.heard (fun v =>
                  if pr.votes.get v ≠ .none then
                    [.partitionResolved id .adopted (s.partition.generation + 1)]
                  else []) }
              p .vote .done none none [])) ∧
          (∀ short : Port, s.usageWithin pr.quotas short = false →
            (∀ v : Port, v.toNat < short.toNat → s.usageWithin pr.quotas v = true) →
            exec (.vote p id choice) s = .next (State.replied
              { s with
                partition := { s.partition with proposal := none }
                events := s.heard (fun v =>
                  if pr.votes.get v ≠ .none then
                    [.partitionResolved id (.failedUsage short) s.partition.generation]
                  else []) }
              p .vote .done none none [])))))

/-- R126: a VOTE with REJECT that passes every check of R125 is DONE, and the proposal is resolved REJECTED with the
rejecting port as the port concerned, whoever else is still PENDING; the active record is unchanged. -/
def Obligations.OneRejectEndsTheProposal : Prop :=
  ∀ (s : State) (p : Port) (id : Byte) (pr : Proposal),
    s.Awaits p .attached → s.partition.proposal = some pr → id = pr.id → pr.votes.get p = .pending →
    exec (.vote p id 0x02) s = .next (State.replied
      { s with
        partition := { s.partition with proposal := none }
        events := s.heard (fun v =>
          if pr.votes.get v ≠ .none then
            [.partitionResolved id (.rejected p) s.partition.generation]
          else []) }
      p .vote .done none none [])

/-- R128: a CANCEL_PROPOSAL is checked for a pending proposal, its id and its proposer, in this order; refused, it
changes nothing; passed, the proposal is resolved WITHDRAWN with the proposer as the port concerned and the active
record unchanged. A DETACHED port is refused NOT_ATTACHED. -/
def Obligations.CancelProposalWithdrawsIt : Prop :=
  ∀ (s : State) (p : Port) (id : Byte),
    (s.Awaits p .detached →
      exec (.cancelProposal p id) s = .next (s.replied p .cancelProposal .notAttached none none [])) ∧
    (s.Awaits p .attached →
      (s.partition.proposal = none →
        exec (.cancelProposal p id) s = .next (s.replied p .cancelProposal .noProposal none none [])) ∧
      (∀ pr, s.partition.proposal = some pr →
        (id ≠ pr.id →
          exec (.cancelProposal p id) s = .next (s.replied p .cancelProposal .stale none none [])) ∧
        (id = pr.id → pr.proposer ≠ p →
          exec (.cancelProposal p id) s = .next (s.replied p .cancelProposal .wrongState none none [])) ∧
        (id = pr.id → pr.proposer = p →
          exec (.cancelProposal p id) s = .next (State.replied
            { s with
              partition := { s.partition with proposal := none }
              events := s.heard (fun v =>
                if pr.votes.get v ≠ .none then
                  [.partitionResolved id (.withdrawn p) s.partition.generation]
                else []) }
            p .cancelProposal .done none none []))))

/-! ### The Time Base and global reset -/

/-- INTERVAL_ADVANCE and END_OF_START_UP (R179, R180, R181, R183, R184). In operation the counter rises by one and the
division period begins again; where no deadline is due and none has the new count for its target, nothing else
changes. A deadline reached expires in the act of the advance: one alone as its own row would take it, and of two
either is taken first, whole, with the other behind it. Only a deadline whose lapse row stands directly behind the
advance in the queue is left to that row, and one that an advance before this one left is taken first: both are the
model's choice (notes/assumptions/5.md). Under global reset the counter is held. In the start-up interval both rows are
the first advance: the counter goes from 0 to 1 and every port whose reset line is released becomes DETACHED, its record
and transaction as they were (R165). Outside the interval END_OF_START_UP changes nothing (notes/assumptions/5.md). -/
def Obligations.AdvanceCountsAndEndsStartUp : Prop :=
  (∀ s : State,
    (s.time.reset = .running → s.dueExpiries = [] → (∀ d ∈ s.placedDeadlines, d.2 ≠ s.time.counter + 1) →
      exec .intervalAdvance s = .next
        { s with time := { counter := s.time.counter + 1, divider := 0, reset := .running } }) ∧
    (s.time.reset = .running →
      exec .intervalAdvance s = .next (State.expireDueBut
        { s.expireDue with time := { counter := s.time.counter + 1, divider := 0, reset := .running } }
        (leadingExpiries s.pending))) ∧
    (s.time.reset = .held → exec .intervalAdvance s = .next s) ∧
    (s.time.reset = .startUp →
      exec .intervalAdvance s = exec .endOfStartUp s ∧
      exec .endOfStartUp s = .next
        { s with
          ports := s.ports.map (fun c => if c.resetAsserted = true then c else { c with state := .detached })
          time := { counter := s.time.counter + 1, divider := 0, reset := .running } }) ∧
    (s.time.reset ≠ .startUp → exec .endOfStartUp s = .next s)) ∧
  (∀ s counted : State, s.time.reset = .running → s.dueExpiries = [] → ConduitLaw s →
    counted = { s with time := { counter := s.time.counter + 1, divider := 0, reset := .running } } →
    (∀ t, exec .intervalAdvance s = .next t → ∀ x ∈ t.dueExpiries, x ∈ leadingExpiries s.pending) ∧
    (∀ (i : Instr) x, expiryOf? i = some x → counted.dueExpiries = [x] → x ∉ leadingExpiries s.pending →
      exec .intervalAdvance s = exec i counted) ∧
    (∀ (i j : Instr) x y, expiryOf? i = some x → expiryOf? j = some y → counted.dueExpiries = [x, y] →
      leadingExpiries s.pending = [] →
      ∃ first second : Instr, (first = i ∧ second = j ∨ first = j ∧ second = i) ∧
        ∃ u t, exec first { counted with choices := counted.choices + 1 } = .next u ∧ exec second u = .next t ∧
          exec .intervalAdvance s = .next t))

/-- GLOBAL_RESET_ASSERTED (R183) puts every block at its power-on values, whatever the state; only the levels of the
port reset lines, which are inputs, and the model's own queue and count of choices stay. GLOBAL_RESET_RELEASED
(R184) begins the start-up interval and changes nothing else; where reset is not held there is no release
(notes/assumptions/16.md). -/
def Obligations.GlobalResetRestoresPowerOn : Prop :=
  ∀ s : State,
    exec .globalResetAsserted s = .next
      { State.reset with
        ports := s.ports.map (fun c =>
          { state := .held
            resetAsserted := c.resetAsserted
            outcome := OutcomeRecord.initial
            rotation := 23
            transaction := none })
        choices := s.choices
        pending := s.pending } ∧
    (s.time.reset = .held →
      exec .globalResetReleased s = .next { s with time := { s.time with reset := .startUp } }) ∧
    (s.time.reset ≠ .held → exec .globalResetReleased s = .next s)

/-- OFFER_LAPSE, PROPOSAL_LAPSE and HOLD_LAPSE (R37, R76, R77, R124). At the deadline an OFFERED conduit is torn down with
LAPSED to its producer and members, and a pending proposal is resolved LAPSED with the active record unchanged. A hold
whose deadline the counter has reached leaves the hold set, its reference goes by the hold lapse claim, its sequence
joins the tail of the lapsed list (an older entry of it gone, and the oldest of four), the member hears HOLD_LAPSED,
and a DRAINING conduit is checked for its end. A deadline that the counter has not reached, or that its owner has
removed, has no expiry (R181; notes/assumptions/5.md). -/
def Obligations.DeadlinesLapseWhenReached : Prop :=
  (∀ (s : State) (n : ConduitNo),
      (∀ ch, s.channel n = some ch → ch.stage = .offered s.time.counter → ch.producer ∉ ch.memberPorts →
        ch.memberPorts.Nodup →
        exec (.offerLapse n) s = .next
          { s with
            pool := s.pool.detach n
            conduits := s.withUse n none
            events := s.heard (fun q =>
              if q = ch.producer ∨ q ∈ ch.memberPorts then
                [.offerResolved n (s.conduit n).generation .lapsed]
              else []) }) ∧
      ((∀ ch, s.channel n = some ch → ch.stage ≠ .offered s.time.counter) → exec (.offerLapse n) s = .next s) ∧
      (∀ pr, s.partition.proposal = some pr → pr.deadline = s.time.counter →
        exec .proposalLapse s = .next
          { s with
            partition := { s.partition with proposal := none }
            events := s.heard (fun v =>
              if pr.votes.get v ≠ .none then
                [.partitionResolved pr.id .lapsed s.partition.generation]
              else []) }) ∧
      ((∀ pr, s.partition.proposal = some pr → pr.deadline ≠ s.time.counter) → exec .proposalLapse s = .next s)) ∧
  (∀ (s : State) (n : ConduitNo) (p : Port) (q : Half) (ch : Channel) (e : Endpoint),
      s.channel n = some ch → ch.endpoint? p = some e → ch.memberPorts.Nodup →
      (∀ d listed lapsed, e.holds.find? (fun d => d.sequence == q && d.deadline == some s.time.counter) = some d →
        lapsed = (if (e.lapsed.erase q).length < 4 then e.lapsed.erase q else (e.lapsed.erase q).tail) ++ [q] →
        listed =
          (State.claim { s with
            conduits := s.withUse n (some { ch with
              members := ch.members.map (fun x : Endpoint =>
                if x.port = p then { e with holds := e.holds.erase d, lapsed } else x) }) } .holdLapse d.handle) →
        exec (.holdLapse n p q) s = .next ((listed.appendEvent p (.holdLapsed n q)).drainCheck n)) ∧
      ((∀ d ∈ e.holds, d.sequence = q → d.deadline ≠ some s.time.counter) →
        exec (.holdLapse n p q) s = .next s))
end

