-- ==== Sys2Proof/Laws/State.lean ====
section
/-! SUPPORT. What each update of a field leaves of each field: the tables of ports, and the updates of one port, one
descriptor and one slot. -/

namespace Sys2Proof

namespace PerPort

variable {α β : Type}

@[simp] theorem get_set_self (t : PerPort α) (p : Port) (x : α) : (t.set p x).get p = x := by
  cases p <;> rfl

@[simp] theorem get_set_ne (t : PerPort α) {p q : Port} (x : α) (h : q ≠ p) : (t.set p x).get q = t.get q := by
  cases p <;> cases q <;> first | rfl | exact absurd rfl h

theorem get_set (t : PerPort α) (p q : Port) (x : α) :
    (t.set p x).get q = if q = p then x else t.get q := by
  cases p <;> cases q <;> rfl

@[simp] theorem set_get_self (t : PerPort α) (p : Port) : t.set p (t.get p) = t := by cases p <;> rfl

@[simp] theorem set_set (t : PerPort α) (p : Port) (x y : α) : (t.set p x).set p y = t.set p y := by
  cases p <;> rfl

@[simp] theorem get_ofFn (f : Port → α) (p : Port) : (ofFn f).get p = f p := by cases p <;> rfl

@[simp] theorem get_map (f : α → β) (t : PerPort α) (p : Port) : (t.map f).get p = f (t.get p) := by
  cases p <;> rfl

@[simp] theorem get_const (x : α) (p : Port) : (const x).get p = x := by cases p <;> rfl

/-- Two tables that agree at every port are equal. -/
theorem ext_get {t u : PerPort α} (h : ∀ p, t.get p = u.get p) : t = u := by
  cases t; cases u
  have h0 := h .p0
  have h1 := h .p1
  have h2 := h .p2
  have h3 := h .p3
  simp only [get] at h0 h1 h2 h3
  subst h0 h1 h2 h3
  rfl

theorem set_eq_ofFn (t : PerPort α) (p : Port) (x : α) :
    t.set p x = ofFn (fun q => if q = p then x else t.get q) :=
  ext_get (fun q => by rw [get_set, get_ofFn])

@[simp] theorem ofFn_get (t : PerPort α) : ofFn t.get = t := ext_get (fun q => by rw [get_ofFn])

end PerPort

@[simp] theorem Port.mem_all (p : Port) : p ∈ Port.all := by cases p <;> decide

theorem Port.nodup_all : Port.all.Nodup := by decide

theorem Port.toNat_injective {p q : Port} (h : p.toNat = q.toNat) : p = q := by
  cases p <;> cases q <;> first | rfl | simp [Port.toNat] at h

theorem Port.toNat_lt (p : Port) : p.toNat < 4 := by cases p <;> decide

namespace Machine

variable (s : State) (p q : Port) (c : PortController) (h : Handle) (g : Option Segment) (n m : ConduitNo)
  (ch : Option Channel)

/-! ### One port replaced -/

@[simp] theorem State.setPort_pool : (s.setPort p c).pool = s.pool := rfl
@[simp] theorem State.setPort_conduits : (s.setPort p c).conduits = s.conduits := rfl
@[simp] theorem State.setPort_events : (s.setPort p c).events = s.events := rfl
@[simp] theorem State.setPort_attention : (s.setPort p c).attention = s.attention := rfl
@[simp] theorem State.setPort_partition : (s.setPort p c).partition = s.partition := rfl
@[simp] theorem State.setPort_time : (s.setPort p c).time = s.time := rfl
@[simp] theorem State.setPort_choices : (s.setPort p c).choices = s.choices := rfl
@[simp] theorem State.setPort_pending : (s.setPort p c).pending = s.pending := rfl
@[simp] theorem State.setPort_ports : (s.setPort p c).ports = s.ports.set p c := rfl
@[simp] theorem State.setPort_segment : (s.setPort p c).segment h = s.segment h := rfl
@[simp] theorem State.setPort_conduit : (s.setPort p c).conduit n = s.conduit n := rfl
@[simp] theorem State.setPort_channel : (s.setPort p c).channel n = s.channel n := rfl
@[simp] theorem State.setPort_port_self : (s.setPort p c).port p = c := by simp [State.port]

theorem State.setPort_port : (s.setPort p c).port q = if q = p then c else s.port q :=
  PerPort.get_set s.ports p q c

@[simp] theorem State.setPort_port_ne {p q : Port} (hq : q ≠ p) : (s.setPort p c).port q = s.port q :=
  PerPort.get_set_ne s.ports c hq

@[simp] theorem State.setPort_setPort (c' : PortController) : (s.setPort p c).setPort p c' = s.setPort p c' := by
  simp [State.setPort]

@[simp] theorem State.setPort_port_eq : s.setPort p (s.port p) = s := by simp [State.setPort, State.port]

/-! ### One descriptor replaced -/

@[simp] theorem State.setSegment_ports : (s.setSegment h g).ports = s.ports := rfl
@[simp] theorem State.setSegment_port : (s.setSegment h g).port p = s.port p := rfl
@[simp] theorem State.setSegment_conduits : (s.setSegment h g).conduits = s.conduits := rfl
@[simp] theorem State.setSegment_conduit : (s.setSegment h g).conduit n = s.conduit n := rfl
@[simp] theorem State.setSegment_channel : (s.setSegment h g).channel n = s.channel n := rfl
@[simp] theorem State.setSegment_events : (s.setSegment h g).events = s.events := rfl
@[simp] theorem State.setSegment_attention : (s.setSegment h g).attention = s.attention := rfl
@[simp] theorem State.setSegment_partition : (s.setSegment h g).partition = s.partition := rfl
@[simp] theorem State.setSegment_time : (s.setSegment h g).time = s.time := rfl
@[simp] theorem State.setSegment_choices : (s.setSegment h g).choices = s.choices := rfl
@[simp] theorem State.setSegment_pending : (s.setSegment h g).pending = s.pending := rfl

@[simp] theorem State.setSegment_segment_self : (s.setSegment h g).segment h = g := by
  simp [State.setSegment, State.segment]

@[simp] theorem State.setSegment_segment_ne {h k : Handle} (hk : k ≠ h) :
    (s.setSegment h g).segment k = s.segment k := by
  simp only [State.setSegment, State.segment, Fin.getElem_fin]
  exact Vector.getElem_set_ne h.isLt k.isLt (fun e => hk (Fin.ext e.symm))

/-! ### One slot replaced -/

@[simp] theorem State.setChannel_pool : (s.setChannel n ch).pool = s.pool := rfl
@[simp] theorem State.setChannel_ports : (s.setChannel n ch).ports = s.ports := rfl
@[simp] theorem State.setChannel_port : (s.setChannel n ch).port p = s.port p := rfl
@[simp] theorem State.setChannel_segment : (s.setChannel n ch).segment h = s.segment h := rfl
@[simp] theorem State.setChannel_events : (s.setChannel n ch).events = s.events := rfl
@[simp] theorem State.setChannel_attention : (s.setChannel n ch).attention = s.attention := rfl
@[simp] theorem State.setChannel_partition : (s.setChannel n ch).partition = s.partition := rfl
@[simp] theorem State.setChannel_time : (s.setChannel n ch).time = s.time := rfl
@[simp] theorem State.setChannel_choices : (s.setChannel n ch).choices = s.choices := rfl
@[simp] theorem State.setChannel_pending : (s.setChannel n ch).pending = s.pending := rfl

theorem State.setChannel_eq : s.setChannel n ch = { s with conduits := s.withUse n ch } := rfl

@[simp] theorem State.setChannel_conduits : (s.setChannel n ch).conduits = s.withUse n ch := rfl

@[simp] theorem State.setChannel_conduit_self :
    (s.setChannel n ch).conduit n = { generation := (s.conduit n).generation, channel := ch } := by
  simp [State.setChannel, State.conduit]

@[simp] theorem State.setChannel_conduit_ne {n m : ConduitNo} (hm : m ≠ n) :
    (s.setChannel n ch).conduit m = s.conduit m := by
  simp only [State.setChannel, State.conduit, Fin.getElem_fin]
  exact Vector.getElem_set_ne n.isLt m.isLt (fun e => hm (Fin.ext e.symm))

@[simp] theorem State.setChannel_channel_self : (s.setChannel n ch).channel n = ch := by
  simp [State.channel]

@[simp] theorem State.setChannel_channel_ne {n m : ConduitNo} (hm : m ≠ n) :
    (s.setChannel n ch).channel m = s.channel m := by
  simp [State.channel, hm]

@[simp] theorem State.setChannel_setChannel (ch' : Option Channel) :
    (s.setChannel n ch).setChannel n ch' = s.setChannel n ch' := by
  simp [State.setChannel, State.conduit]

theorem State.updateChannel_of_some {f : Channel → Channel} {x : Channel} (hx : s.channel n = some x) :
    s.updateChannel n f = s.setChannel n (some (f x)) := by
  simp [State.updateChannel, hx]

theorem State.updateChannel_of_none {f : Channel → Channel} (hx : s.channel n = none) :
    s.updateChannel n f = s := by
  simp [State.updateChannel, hx]

/-- One entry of a table whose entries are all replaced by their images. -/
theorem getElem_mapEntries {α : Type} {k : Nat} (f : α → α) (v : Vector α k) (i : Nat) (hi : i < k) :
    (mapEntries f v)[i] = f v[i] := by
  simp [mapEntries, Vector.getElem_mk]

end Machine

end Sys2Proof
end

