-- ==== Sys2Proof/Laws/Ops.lean ====
section
/-! SUPPORT. What each shared operation can do, said once: the event append as records heard, the surroundings an
operation leaves alone, and the records an operation may add. -/

namespace Sys2Proof.Machine

/-! ### Records heard -/

/-- The state after these records are addressed to each port in turn. -/
def State.tell (s : State) (f : Port → List Event) : State := { s with events := s.heard f }

theorem State.hears_nil (s : State) (p : Port) : s.hears p [] = s.events.get p := by simp [State.hears]

theorem State.heard_nil (s : State) : s.heard (fun _ => []) = s.events := by
  simp [State.heard, State.hears_nil]

theorem State.tell_nil (s : State) : s.tell (fun _ => []) = s := by simp [State.tell, State.heard_nil]

theorem State.heard_get (s : State) (f : Port → List Event) (p : Port) : (s.heard f).get p = s.hears p (f p) := by
  simp [State.heard]

/-- Records told in two turns are told one turn behind the other. -/
theorem State.tell_tell (s : State) (f g : Port → List Event) :
    (s.tell f).tell g = s.tell (fun q => f q ++ g q) := by
  have key : (s.tell f).heard g = s.heard (fun q => f q ++ g q) := by
    apply PerPort.ext_get
    intro p
    rw [State.heard_get, State.heard_get]
    have hev : (s.tell f).events.get p = s.hears p (f p) := s.heard_get f p
    have hat : (s.tell f).Attached p ↔ s.Attached p := Iff.rfl
    unfold State.hears at hev ⊢
    by_cases ha : s.Attached p
    · rw [if_pos (hat.2 ha), if_pos ha, List.foldl_append, hev, if_pos ha]
    · rw [if_neg (fun h => ha (hat.1 h)), if_neg ha, hev, if_neg ha]
  simp only [State.tell] at key ⊢
  rw [key]

theorem State.appendEvent_eq_tell (s : State) (p : Port) (e : Event) :
    s.appendEvent p e = s.tell (fun q => if q = p then [e] else []) := by
  have key : s.heard (fun q => if q = p then [e] else []) =
      if s.Attached p then s.events.set p ((s.events.get p).push e) else s.events := by
    apply PerPort.ext_get
    intro q
    rw [State.heard_get, State.hears]
    by_cases ha : s.Attached p
    · rw [if_pos ha, PerPort.get_set]
      by_cases hq : q = p
      · subst hq; simp [ha]
      · simp [hq]
    · rw [if_neg ha]
      by_cases hq : q = p
      · subst hq; simp [ha]
      · simp [hq]
  simp only [State.tell, State.appendEvent, key]
  split <;> rfl

theorem State.appendEvents_eq_tell (s : State) (ps : List Port) (e : Event) :
    s.appendEvents ps e = s.tell (fun q => List.replicate (ps.count q) e) := by
  induction ps generalizing s with
  | nil => simp [State.appendEvents, State.tell_nil]
  | cons p ps ih =>
    have : s.appendEvents (p :: ps) e = (s.appendEvent p e).appendEvents ps e := rfl
    rw [this, ih, State.appendEvent_eq_tell, State.tell_tell]
    congr 1
    funext q
    by_cases hq : q = p
    · subst hq
      simp [List.replicate_succ]
    · have : p ≠ q := fun h => hq h.symm
      simp [hq, List.count_cons_of_ne this]

/-- The same record addressed once to each of several ports. -/
theorem State.appendEvents_of_nodup (s : State) {ps : List Port} (e : Event) (h : ps.Nodup) :
    s.appendEvents ps e = s.tell (fun q => if q ∈ ps then [e] else []) := by
  rw [State.appendEvents_eq_tell]
  congr 1
  funext q
  by_cases hq : q ∈ ps
  · simp [hq, List.count_eq_one_of_mem h hq]
  · simp [hq, List.count_eq_zero_of_not_mem hq]

/-! ### Surroundings -/

/-- What the operations on descriptors, slots and event queues leave alone. -/
structure SameSurroundings (s t : State) : Prop where
  ports : t.ports = s.ports
  attention : t.attention = s.attention
  partition : t.partition = s.partition
  time : t.time = s.time
  choices : t.choices = s.choices
  pending : t.pending = s.pending

theorem SameSurroundings.refl (s : State) : SameSurroundings s s := ⟨rfl, rfl, rfl, rfl, rfl, rfl⟩

theorem SameSurroundings.trans {s t u : State} (a : SameSurroundings s t) (b : SameSurroundings t u) :
    SameSurroundings s u :=
  ⟨b.ports.trans a.ports, b.attention.trans a.attention, b.partition.trans a.partition, b.time.trans a.time,
   b.choices.trans a.choices, b.pending.trans a.pending⟩

theorem State.tell_surroundings (s : State) (f : Port → List Event) : SameSurroundings s (s.tell f) :=
  ⟨rfl, rfl, rfl, rfl, rfl, rfl⟩

theorem State.appendEvent_surroundings (s : State) (p : Port) (e : Event) :
    SameSurroundings s (s.appendEvent p e) := by
  rw [State.appendEvent_eq_tell]; exact s.tell_surroundings _

theorem State.appendEvents_surroundings (s : State) (ps : List Port) (e : Event) :
    SameSurroundings s (s.appendEvents ps e) := by
  rw [State.appendEvents_eq_tell]; exact s.tell_surroundings _

theorem State.setSegment_surroundings (s : State) (h : Handle) (g : Option Segment) :
    SameSurroundings s (s.setSegment h g) := ⟨rfl, rfl, rfl, rfl, rfl, rfl⟩

theorem State.setChannel_surroundings (s : State) (n : ConduitNo) (ch : Option Channel) :
    SameSurroundings s (s.setChannel n ch) := ⟨rfl, rfl, rfl, rfl, rfl, rfl⟩

theorem State.updateChannel_surroundings (s : State) (n : ConduitNo) (f : Channel → Channel) :
    SameSurroundings s (s.updateChannel n f) := by
  cases h : s.channel n with
  | none => rw [s.updateChannel_of_none n h]; exact .refl s
  | some ch => rw [s.updateChannel_of_some n h]; exact s.setChannel_surroundings n _

theorem State.withPool_surroundings (s : State) (pool : Pool) :
    SameSurroundings s { s with pool } := ⟨rfl, rfl, rfl, rfl, rfl, rfl⟩

theorem State.freeingNotice_surroundings (s : State) (n : ConduitNo) : SameSurroundings s (s.freeingNotice n) := by
  unfold State.freeingNotice
  split
  · exact .refl s
  · split
    · exact .refl s
    · split
      · exact (s.updateChannel_surroundings n _).trans (State.appendEvent_surroundings _ _ _)
      · exact s.updateChannel_surroundings n _

theorem State.freeDescriptor_surroundings (s : State) (h : Handle) : SameSurroundings s (s.freeDescriptor h) := by
  unfold State.freeDescriptor
  split
  · exact .refl s
  · split
    · exact s.withPool_surroundings _
    · exact (s.withPool_surroundings _).trans (State.freeingNotice_surroundings _ _)

theorem State.claim_surroundings (s : State) (c : Claim) (h : Handle) : SameSurroundings s (s.claim c h) := by
  unfold State.claim
  split
  · exact .refl s
  · split
    · exact .refl s
    · split
      · exact (s.setSegment_surroundings h _).trans (State.freeDescriptor_surroundings _ h)
      · exact s.setSegment_surroundings h _

theorem State.claims_surroundings (s : State) (c : Claim) (hs : List Handle) : SameSurroundings s (s.claims c hs) := by
  induction hs generalizing s with
  | nil => exact .refl s
  | cons h hs ih => exact (s.claim_surroundings c h).trans (ih _)

theorem State.teardown_surroundings (s : State) (n : ConduitNo) : SameSurroundings s (s.teardown n) :=
  ⟨rfl, rfl, rfl, rfl, rfl, rfl⟩

theorem State.failOffer_surroundings (s : State) (n : ConduitNo) (r : OfferResult) (ps : List Port) :
    SameSurroundings s (s.failOffer n r ps) :=
  (s.appendEvents_surroundings ps _).trans (State.teardown_surroundings _ n)

theorem State.endConduit_surroundings (s : State) (n : ConduitNo) (r : EndReason) :
    SameSurroundings s (s.endConduit n r) := by
  unfold State.endConduit
  split
  · exact .refl s
  · exact (s.appendEvents_surroundings _ _).trans (State.teardown_surroundings _ n)

theorem State.drainCheck_surroundings (s : State) (n : ConduitNo) : SameSurroundings s (s.drainCheck n) := by
  unfold State.drainCheck
  split
  · exact .refl s
  · split
    · split
      · exact s.endConduit_surroundings n _
      · exact .refl s
    · exact .refl s

theorem State.removeMember_surroundings (s : State) (n : ConduitNo) (p : Port) (r : GoneReason) :
    SameSurroundings s (s.removeMember n p r) := by
  unfold State.removeMember
  split
  · exact .refl s
  · split
    · exact .refl s
    · rename_i ch _ _ e _
      have dropped := ((((s.setChannel_surroundings n
          (some { ch with members := ch.members.filter (fun e => e.port != p) })).trans
        (State.appendEvents_surroundings _ (if ch.producerPresent then [ch.producer] else [])
          (.consumerGone n p r))).trans
        (State.claims_surroundings _ .removeQueued e.queue)).trans
        (State.claims_surroundings _ .removeHeld (e.holds.map (fun d => d.handle))))
      by_cases hl : ch.members.all (fun e => e.port == p) = true
      · simp only [hl, if_true]
        exact dropped.trans (State.endConduit_surroundings _ _ _)
      · simp only [hl]
        exact dropped.trans (State.drainCheck_surroundings _ _)

/-! ### Slots under a teardown -/

theorem State.teardown_eq (s : State) (n : ConduitNo) :
    s.teardown n = { s with pool := s.pool.detach n, conduits := s.withUse n none } := rfl

theorem State.failOffer_eq (s : State) (n : ConduitNo) (r : OfferResult) {ps : List Port} (h : ps.Nodup) :
    s.failOffer n r ps =
      { s with
        pool := s.pool.detach n
        conduits := s.withUse n none
        events := s.heard (fun q =>
          if q ∈ ps then [.offerResolved n (s.conduit n).generation r] else []) } := by
  unfold State.failOffer
  rw [State.appendEvents_of_nodup _ _ h]
  rfl

theorem State.endConduit_eq (s : State) (n : ConduitNo) (r : EndReason) {ch : Channel}
    (hc : s.channel n = some ch) (hp : ch.producer ∉ ch.memberPorts) (hn : ch.memberPorts.Nodup) :
    s.endConduit n r =
      { s with
        pool := s.pool.detach n
        conduits := s.withUse n none
        events := s.heard (fun q =>
          if (q = ch.producer ∧ ch.producerPresent = true) ∨ q ∈ ch.memberPorts then
            [.conduitEnded n (s.conduit n).generation r]
          else []) } := by
  have hnd : ((if ch.producerPresent then [ch.producer] else []) ++ ch.memberPorts).Nodup := by
    cases ch.producerPresent <;> simp [hn, hp]
  unfold State.endConduit
  simp only [hc]
  rw [State.appendEvents_of_nodup _ _ hnd]
  have : (fun q => if q ∈ (if ch.producerPresent then [ch.producer] else []) ++ ch.memberPorts then
        [Event.conduitEnded n (s.conduit n).generation r] else []) =
      (fun q => if (q = ch.producer ∧ ch.producerPresent = true) ∨ q ∈ ch.memberPorts then
        [Event.conduitEnded n (s.conduit n).generation r] else []) := by
    funext q
    cases ch.producerPresent <;> simp
  rw [this]
  rfl

end Sys2Proof.Machine
end

