-- ==== Sys2Proof/Laws/Serial.lean ====
section
/-! SUPPORT. What a command frame does by the phase of its port's transaction, said once: at the acceptance instant the
answer of the owning block, or the refusal of the port state, is written and replied. -/

namespace Sys2Proof.Machine

theorem State.Awaits.shown {s : State} {p : Port} {shown : ShownState} (h : s.Awaits p shown) :
    s.shownState p = some shown := h.1

/-- A port that shows ATTACHED is ATTACHED. -/
theorem State.Awaits.attached {s : State} {p : Port} (h : s.Awaits p .attached) : s.Attached p := by
  have hs := h.1
  unfold State.shownState at hs
  cases hp : (s.port p).state with
  | attached => exact hp
  | detached => simp [hp] at hs
  | held => simp [hp] at hs

/-- What a command frame on a port that awaits one does: the answer of the port-state check or of the owning block,
accepted. -/
theorem State.transact_of_awaits {s : State} {p : Port} {shown : ShownState} (h : s.Awaits p shown) (c : Command)
    (args : List Byte) (named : Option ConduitNo) (owner : State → Answer) :
    ∃ t, (s.port p).transaction = some t ∧
      s.transact p c args named owner =
        State.accept p c named t
          (match admission c shown with | some r => refuse s r | none => owner s) := by
  obtain ⟨hs, t, ht, hp⟩ := h
  refine ⟨t, ht, ?_⟩
  unfold State.transact
  simp only [hs, ht, hp]
  cases admission c shown <;> rfl

/-- An answer that is neither an accepted STATUS, DETACH nor POST, written and replied. -/
theorem State.accept_eq_replied {p : Port} {c : Command} {named : Option ConduitNo} {t : Transaction} {a : Answer}
    (ht : (a.state.port p).transaction = some t)
    (hc : a.outcome = .done → c ≠ .status ∧ c ≠ .detach ∧ c ≠ .post) :
    State.accept p c named t a =
      a.state.replied p c a.outcome (a.conduit.or named) a.handle (if a.outcome = .done then a.fields else []) := by
  have h1 : ¬ ((c = .status ∨ c = .detach) ∧ a.outcome = .done) := by
    rintro ⟨h | h, ho⟩
    · exact (hc ho).1 h
    · exact (hc ho).2.1 h
  have h2 : ¬ (c = .post ∧ a.outcome = .done) := fun h => (hc h.2).2.2 h.1
  by_cases ho : a.outcome = .done
  · have h3 : ¬ c = .status := (hc ho).1
    simp [State.accept, State.writeOutcome, State.enterReply, State.replied, PortController.replied,
      PortController.replying, ht, replyBytes, ho, h3]
    simp [ho] at h1 h2
    simp [h1, h2]
  · simp [State.accept, State.writeOutcome, State.enterReply, State.replied, PortController.replied,
      PortController.replying, ht, replyBytes, ho]

/-- A command frame on a port that awaits one, where its answer keeps the port's transaction. -/
theorem State.transact_eq_replied {s : State} {p : Port} {shown : ShownState} (h : s.Awaits p shown) {c : Command}
    {args : List Byte} {named : Option ConduitNo} {owner : State → Answer} {a : Answer}
    (ha : (match admission c shown with | some r => refuse s r | none => owner s) = a)
    (ht : (a.state.port p).transaction = (s.port p).transaction)
    (hc : a.outcome = .done → c ≠ .status ∧ c ≠ .detach ∧ c ≠ .post) :
    s.transact p c args named owner =
      a.state.replied p c a.outcome (a.conduit.or named) a.handle (if a.outcome = .done then a.fields else []) := by
  obtain ⟨t, ht', he⟩ := State.transact_of_awaits h c args named owner
  rw [he, ha]
  exact State.accept_eq_replied (ht.trans ht') hc

/-- A command frame on an ATTACHED port that awaits one: the owning block's answer, written and replied. -/
theorem State.transact_of_attached {s : State} {p : Port} (h : s.Awaits p .attached) {c : Command}
    {args : List Byte} {named : Option ConduitNo} {owner : State → Answer} {a : Answer} (hc : c ≠ .attach)
    (ha : owner s = a) (ht : (a.state.port p).transaction = (s.port p).transaction)
    (hd : a.outcome = .done → c ≠ .status ∧ c ≠ .detach ∧ c ≠ .post) :
    s.transact p c args named owner =
      a.state.replied p c a.outcome (a.conduit.or named) a.handle (if a.outcome = .done then a.fields else []) := by
  refine State.transact_eq_replied h ?_ ht hd
  have : admission c .attached = none := by cases c <;> first | rfl | exact absurd rfl hc
  rw [this]
  exact ha

/-- Every row that is a host command is framed alike: exec hands its frame to the port controller, with the conduit its
arguments name and the answer of one owning block. -/
theorem exec_of_frame {i : Instr} {c : Command} {p : Port} {args : List Byte} (h : i.frame = some (c, p, args)) :
    ∃ owner : State → Answer, ∀ s, exec i s = .next (s.transact p c args (namedConduit c args) owner) := by
  cases i <;> simp only [Instr.frame, Option.some.injEq, Prod.mk.injEq, reduceCtorEq] at h <;>
    obtain ⟨rfl, rfl, rfl⟩ := h <;> exact ⟨_, fun _ => rfl⟩

/-- A refusal of the port-state check, written and replied. -/
theorem exec_of_frame_refused {i : Instr} {c : Command} {p : Port} {args : List Byte} {s : State}
    {shown : ShownState} {r : OutcomeCode} (h : i.frame = some (c, p, args)) (ha : s.Awaits p shown)
    (hr : admission c shown = some r) (hd : r ≠ .done) :
    exec i s = .next (s.replied p c r (namedConduit c args) none []) := by
  obtain ⟨owner, he⟩ := exec_of_frame h
  rw [he, State.transact_eq_replied ha (a := refuse s r) (by rw [hr]) rfl (fun h => absurd h hd)]
  simp [refuse, hd]

end Sys2Proof.Machine
end

