-- ==== Sys2Proof/Tests/Slice0.lean ====
section
/-! SUPPORT. Tests. Expected values are taken from the worked examples and tables of spec/, or computed by hand from the
rule a test names. Then the witnesses: for each statement with hypotheses, a state and operands that meet them all. -/

namespace Sys2Proof.Tests

-- One theorem at a time: a thread that waits for another keeps its stack.
set_option Elab.async false

open Sys2Proof.Machine

/-! ### Ill-formed terms -/

/-- 0x10 is POST (R169): no BAD_COMMAND carries it. -/
theorem test_wellFormed_refuses_badCommand_of_a_known_code :
    (Instr.badCommand .p0 0x10).wellFormed = false := by decide

/-- 0x04 names no command (R169). -/
theorem test_wellFormed_admits_badCommand_of_an_unknown_code :
    (Instr.badCommand .p0 0x04).wellFormed = true := by decide

/-- A code that names no command is never TRUNCATED (R152). -/
theorem test_wellFormed_refuses_truncated_of_an_unknown_code :
    (Instr.truncated .p0 0x04 []).wellFormed = false := by decide

/-- POST carries three argument bytes (R150): with three it is complete, with two it is not. -/
theorem test_wellFormed_refuses_truncated_with_complete_arguments :
    (Instr.truncated .p0 0x10 [1, 0, 5]).wellFormed = false ∧
    (Instr.truncated .p0 0x10 [1, 0]).wellFormed = true := by decide

/-! ### Frames, written out from R169 -/

theorem test_frame_nextEvent : Instr.ofInput .p2 [0x03] = some (.nextEvent .p2) := by decide

/-- The example of chapter 9: ports 1 and 3, URGENT, window 6, maximum size 300, hold limit 50. -/
theorem test_frame_offer :
    Instr.ofInput .p0 [0x08, 0x0A, 0x01, 6, 0x01, 0x2C, 0x00, 50] =
      some (.offer .p0 0x0A 0x01 6 300 50) := by decide

theorem test_frame_answer :
    Instr.ofInput .p1 [0x09, 3, 7, 0x01, 4, 0x02, 0x01] = some (.answer .p1 3 7 0x01 4 513) := by decide

theorem test_frame_post : Instr.ofInput .p1 [0x10, 5, 0x00, 0xC8] = some (.post .p1 5 200) := by decide

theorem test_frame_readHeld : Instr.ofInput .p2 [0x14, 8, 0x01, 0x2C] = some (.readHeld .p2 8 300) := by decide

theorem test_frame_attend :
    Instr.ofInput .p0 [0x18, 2, 63, 0x12, 0x34] = some (.attend .p0 2 63 0x1234) := by decide

/-- Twenty argument bytes: blocks, descriptors and conduits of each port in turn (R176). -/
theorem test_frame_propose :
    Instr.ofInput .p3 [0x20, 0, 128, 0, 64, 6, 1, 0, 0, 64, 6, 0, 0, 0, 0, 0, 0, 2, 0, 1, 3] =
      some (.propose .p3 ⟨⟨128, 64, 6⟩, ⟨256, 64, 6⟩, ⟨0, 0, 0⟩, ⟨2, 1, 3⟩⟩) := by decide

theorem test_frame_segmentInfo : Instr.ofInput .p0 [0x29, 255] = some (.segmentInfo .p0 255) := by decide

/-! ### Layouts -/

/-- R168: the port state in bits 7 and 6, the attention count in bits 5 and 4, the flag in bit 3. -/
theorem test_header_bytes :
    StatusHeader.bytes
      { portState := .attached, overflow := true, attentionCount := 2, eventCount := 32, lastOutcome := .windowFull,
        lastCommand := 0x10 } = [0xE8, 32, 0x31, 0x10] := by decide

/-- The OFFER_RECEIVED record of chapter 9's example. -/
theorem test_offerReceived_bytes :
    EventRecord.bytes { number := 9, event := .offerReceived 11 8 .p0 6 300 } =
      [0x04, 9, 11, 8, 0, 6, 0x01, 0x2C] := by decide

/-- R4: a length divided by 128, rounded up. -/
theorem test_blockCounts :
    [1, 128, 129, 200, 700, 1000, 1024].map blockCount = [1, 1, 2, 2, 6, 8, 8] := by decide

/-! ### The bench -/

/-- A transaction that awaits its command. -/
def awaiting : Transaction :=
  { header :=
      { portState := .attached
        overflow := false
        attentionCount := 0
        eventCount := 0
        lastOutcome := .done
        lastCommand := 0x00 }
    phase := .command
    byteCount := 0
    replyPosition := 4
    reply := [] }

/-- A controller that awaits a command, its reset line released. -/
def controller (st : PortState) : PortController :=
  { state := st, resetAsserted := false, outcome := OutcomeRecord.initial, rotation := 23, transaction := some awaiting }

/-- Ports 0, 1 and 2 ATTACHED and port 3 DETACHED, all awaiting a command; the counter at 1000; nothing else. -/
def calm : State :=
  { State.reset with
    ports := ⟨controller .attached, controller .attached, controller .attached, controller .detached⟩
    time := { counter := 1000, divider := 0, reset := .running } }

/-- A member that has accepted with limits 4 and 64. -/
def member (p : Port) (queue : List Handle) (holds : List Hold) (lapsed : List Half) : Endpoint :=
  { port := p, answer := .accepted 4 64, queue, holds, lapsed }

/-- A conduit from a producer with these members and stage, without a hold limit. -/
def conduitOf (producer : Port) (members : List Endpoint) (stage : Stage) : Channel :=
  { producer, producerPresent := true, cls := .routine, requestedWindow := 4, requestedSize := 64, holdLimit := 0,
    members, stage }

/-- Flow fields with window 4 and maximum size 64. -/
def flowOf (next : Half) (outstanding : Nat) (latch : Bool) : Flow :=
  { window := 4, maxSize := 64, nextSequence := next, outstanding, windowLatch := latch }

/-- A state with a use put into one slot. -/
def withSlot (s : State) (n : ConduitNo) (ch : Channel) : State := s.setChannel n (some ch)

/-- A LIVE segment of port 0 on conduit 0 with three payload bytes. -/
def segmentOf (q : Half) (refs : Refs) : Segment :=
  { producer := .p0, conduit := some 0, length := 3, payload := [7, 8, 9], stage := .live q refs }

/-- A state whose pool has allocated handle 0 to port 0 for three bytes, with this segment. -/
def withSegment (s : State) (g : Segment) : State :=
  State.setSegment { s with pool := s.pool.allocate 0 .p0 0 3 } 0 (some g)

/-- The channel of the bench: port 0 produces, ports 1 and 2 have handle 0 queued. -/
def benchChannel : Channel :=
  conduitOf .p0 [member .p1 [0] [] [], member .p2 [0] [] []] (.opened (flowOf 1 1 false))

/-- The segment of the bench. -/
def benchSegment : Segment := segmentOf 0 { queue := 2, hold := 0, transfer := 0 }

/-- Port 2 has a request waiting at port 0, and port 1 has one record. -/
def bench : State :=
  { withSegment (withSlot calm 0 benchChannel) benchSegment with
    attention :=
      { queues := ⟨[{ source := .p2, vector := 5, argument := 0x1234 }], [], [], []⟩
        pairs := (PerPort.const (PerPort.const .none)).set .p2 ((PerPort.const .none).set .p0 .pending) }
    events := ⟨{ records := [], counter := 0 }, { records := [{ number := 6, event := .arrived 0 }], counter := 7 },
      { records := [], counter := 0 }, { records := [], counter := 0 }⟩ }

/-! ### The laws at the bench -/

theorem bench_channel_self : bench.channel 0 = some benchChannel := by decide +kernel

theorem bench_channel_ne : ∀ n : ConduitNo, n ≠ 0 → bench.channel n = none := by decide +kernel

theorem bench_segment_self : bench.segment 0 = some benchSegment := by decide +kernel

theorem bench_segment_ne (h : Handle) (hh : h ≠ 0) : bench.segment h = none := by
  refine (State.setSegment_segment_ne { withSlot calm 0 benchChannel with
    pool := (withSlot calm 0 benchChannel).pool.allocate 0 .p0 0 3 } (some benchSegment) hh).trans ?_
  have other : (0 : Nat) ≠ h.val := fun e => hh (Fin.ext e.symm)
  exact (Vector.getElem_set_ne (i := 0) (by decide) h.isLt other).trans (Vector.getElem_replicate h.isLt)

theorem bench_channel {n : ConduitNo} {ch : Channel} (h : bench.channel n = some ch) :
    n = 0 ∧ ch = benchChannel := by
  by_cases hn : n = 0
  · subst hn
    rw [bench_channel_self] at h
    exact ⟨rfl, (Option.some.inj h).symm⟩
  · rw [bench_channel_ne n hn] at h
    exact absurd h (by simp)

theorem bench_segment {h : Handle} {g : Segment} (e : bench.segment h = some g) : h = 0 ∧ g = benchSegment := by
  by_cases hh : h = 0
  · subst hh
    rw [bench_segment_self] at e
    exact ⟨rfl, (Option.some.inj e).symm⟩
  · rw [bench_segment_ne h hh] at e
    exact absurd e (by simp)

theorem bench_portLaw : PortLaw bench where
  heldByReset := by intro p; cases p <;> decide +kernel
  heldBeforeOperation := by intro h; exact absurd rfl h
  heldOnlyByReset := by intro _ p; cases p <;> decide +kernel
  silentWhileIgnored := by intro p; cases p <;> decide +kernel
  rotationRests := by intro p; cases p <;> decide +kernel
  idleWhileDetached := by intro p; cases p <;> decide +kernel
  readEnds := by intro p; cases p <;> decide +kernel
  fillsArePosts := by
    intro p x hx hp
    cases p <;> cases Option.some.inj hx <;> exact absurd hp (by decide)

theorem bench_records : ∀ p, p ≠ .p1 → bench.events.get p = { records := [], counter := 0 } := by
  intro p h; cases p <;> first | rfl | exact absurd rfl h

theorem empty_queueLaw : QueueLaw { records := [], counter := 0 } :=
  { atMost32 := by decide
    atMost31Ordinary := by decide
    overflowIsYoungest := by decide
    lostInRange := by intro r hr; exact absurd hr (by simp)
    numbered := by intro i h; exact absurd h (by simp) }

theorem bench_queueLaw :
    QueueLaw { records := [{ number := 6, event := .arrived 0 }], counter := 7 } :=
  { atMost32 := by decide
    atMost31Ordinary := by decide
    overflowIsYoungest := by decide
    lostInRange := by
      intro r hr lost h
      rw [List.mem_singleton] at hr
      subst hr
      exact absurd h (by simp)
    numbered := by
      intro i h
      have hi : i = 0 := by simpa using h
      subst hi
      rfl }

theorem bench_eventLaw : EventLaw bench where
  queues := by
    intro p
    by_cases h : p = .p1
    · subst h; exact bench_queueLaw
    · rw [bench_records p h]; exact empty_queueLaw
  unattached := by
    intro p h
    by_cases hp : p = .p1
    · subst hp; exact absurd rfl h
    · rw [bench_records p hp]

theorem bench_attentionLaw : AttentionLaw bench where
  oneEach := by intro t; cases t <;> decide +kernel
  pendingIsQueued := by intro p t; cases p <;> cases t <;> decide +kernel
  vectors := by intro t; cases t <;> decide +kernel
  noneWithItself := by intro p; cases p <;> decide +kernel
  unattached := by intro p h q; cases p <;> first | exact absurd rfl h | (cases q <;> decide +kernel)

theorem bench_partitionLaw : PartitionLaw bench where
  activeSums := by decide +kernel
  proposal := by intro pr h; exact absurd h (by simp [bench, withSegment, withSlot, calm, State.reset,
    Partition.initial])

theorem allHandles_nodup : allHandles.Nodup := by
  refine List.Nodup.map_on ?_ List.nodup_range
  intro a ha b hb h
  rw [List.mem_range] at ha hb
  have := congrArg Fin.val h
  simpa [Fin.ofNat, Nat.mod_eq_of_lt ha, Nat.mod_eq_of_lt hb] using this

theorem mem_allHandles (h : Handle) : h ∈ allHandles :=
  List.mem_map.2 ⟨h.val, List.mem_range.2 h.isLt, Fin.ext (Nat.mod_eq_of_lt h.isLt)⟩

theorem bench_freeList : allHandles = 0 :: bench.pool.freeList := rfl

theorem bench_accountingLaw : AccountingLaw bench where
  freeOnce := (List.nodup_cons.1 (bench_freeList ▸ allHandles_nodup)).2
  freeListed := by
    intro h
    by_cases hh : h = 0
    · subst hh
      exact ⟨fun m => absurd m (List.nodup_cons.1 (bench_freeList ▸ allHandles_nodup)).1,
        fun e => absurd (bench_segment_self.symm.trans e) (by simp)⟩
    · refine ⟨fun _ => bench_segment_ne h hh, fun _ => ?_⟩
      have m := mem_allHandles h
      rw [bench_freeList] at m
      exact (List.mem_cons.1 m).resolve_left hh
  blocksTotal := by decide +kernel
  blocksCharged := by intro p; cases p <;> decide +kernel
  descriptorsCharged := by intro p; cases p <;> decide +kernel
  withinQuota := by intro p; cases p <;> decide +kernel

theorem bench_conduitLaw : ConduitLaw bench := by
  intro n ch h
  obtain ⟨rfl, rfl⟩ := bench_channel h
  exact
    { members := by decide +kernel
      producerApart := by decide +kernel
      membersAttached := by decide +kernel
      producerAttached := by intro _; decide +kernel
      requested := by decide +kernel
      limits := by
        intro e he w z h
        simp [benchChannel, conduitOf, member] at he
        rcases he with rfl | rfl <;> simp at h <;> omega
      offered := by intro d h; exact absurd h (by simp [benchChannel, conduitOf])
      answered := by intro _; decide +kernel
      openPresent := by intro _ _; rfl
      drainingUndrained := by intro f h; exact absurd h (by simp [benchChannel, conduitOf])
      kept := by decide +kernel
      effective := by
        intro f h
        simp [benchChannel, conduitOf, Stage.flow?] at h
        subst h
        decide +kernel }

theorem bench_windowLaw : WindowLaw bench where
  unnamed := by
    intro n h
    by_cases hn : n = 0
    · subst hn; exact absurd (h _ bench_channel_self) (by decide +kernel)
    · have all : ∀ n : ConduitNo, n ≠ 0 → bench.naming n = 0 := by decide +kernel
      exact all n hn
  counted := by
    intro n ch f h hf
    obtain ⟨rfl, rfl⟩ := bench_channel h
    simp [benchChannel, conduitOf, Stage.flow?] at hf
    subst hf
    decide +kernel
  latched := by
    intro n ch f h hf hl
    obtain ⟨rfl, rfl⟩ := bench_channel h
    simp [benchChannel, conduitOf, Stage.flow?] at hf
    subst hf
    exact absurd hl (by decide +kernel)
  sequencesApart := by
    intro n h k g g' q r r' eh ek _ _ _ _
    rw [(bench_segment eh).1, (bench_segment ek).1]
  fillsAreFresh := by
    intro n ch f h g _ _ eh _ hs
    obtain ⟨rfl, rfl⟩ := bench_segment eh
    cases hs

theorem bench_referenceLaw : ReferenceLaw bench where
  live := by
    intro h g q r e hs
    obtain ⟨rfl, rfl⟩ := bench_segment e
    simp [benchSegment, segmentOf] at hs
    obtain ⟨rfl, rfl⟩ := hs
    decide +kernel
  others := by
    intro h e
    by_cases hh : h = 0
    · subst hh; exact absurd rfl (e _ _ _ bench_segment_self)
    · have ends : bench.endpoints = [member .p1 [0] [] [], member .p2 [0] [] []] := by decide +kernel
      have none : ∀ p, bench.transferHandle? p = none := by intro p; cases p <;> decide +kernel
      have h0 : ¬ (0 : Handle) = h := fun e => hh e.symm
      refine ⟨?_, ?_, ?_⟩
      · simp [State.queueEntries, ends, member, h0]
      · simp [State.holdEntries, ends, member]
      · simp [State.transfersOf, none]
  queued := by
    intro n ch e h hc he hq
    obtain ⟨rfl, rfl⟩ := bench_channel hc
    simp [benchChannel, conduitOf, member] at he
    rcases he with rfl | rfl <;> simp at hq <;> subst hq <;> exact ⟨_, bench_segment_self, rfl⟩
  held := by
    intro n ch e d hc he hd
    obtain ⟨rfl, rfl⟩ := bench_channel hc
    simp [benchChannel, conduitOf, member] at he
    rcases he with rfl | rfl <;> simp at hd
  filling := by
    intro h g e hs
    obtain ⟨rfl, rfl⟩ := bench_segment e
    exact absurd hs (by simp [benchSegment, segmentOf])
  filled := by
    intro p h e
    have all : ∀ p, bench.fillHandle? p = none := by intro p; cases p <;> decide +kernel
    rw [all p] at e
    exact absurd e (by simp)

theorem bench_deadlineLaw : DeadlineLaw bench := by
  intro d hd
  have : bench.placedDeadlines = [] := by decide +kernel
  rw [this] at hd
  exact absurd hd (by simp)

theorem bench_entryLaw : EntryLaw bench := by
  intro n ch h
  obtain ⟨rfl, rfl⟩ := bench_channel h
  decide +kernel

theorem bench_payloadLaw : PayloadLaw bench where
  live := by
    intro h g q r e _
    obtain ⟨rfl, rfl⟩ := bench_segment e
    rfl
  filling := by
    intro p h g x e
    have all : ∀ p, bench.fillHandle? p = none := by intro p; cases p <;> decide +kernel
    rw [all p] at e
    exact absurd e (by simp)

theorem bench_promptLaw : PromptLaw bench := by
  intro d hd
  have : bench.placedDeadlines = [] := by decide +kernel
  rw [this] at hd
  exact absurd hd (by simp)

/-! ### The laws with one slot in use -/

/-- Calm with conduit 0 in this use and handle 0 allocated to port 0 as this segment. -/
def oneSlot (ch : Channel) (g : Segment) : State := withSegment (withSlot calm 0 ch) g

theorem oneSlot_channel {ch ch' : Channel} {g : Segment} {n : ConduitNo} (h : (oneSlot ch g).channel n = some ch') :
    n = 0 ∧ ch' = ch := by
  by_cases hn : n = 0
  · subst hn
    have : (oneSlot ch g).channel 0 = some ch := State.setChannel_channel_self calm 0 (some ch)
    rw [this] at h
    exact ⟨rfl, (Option.some.inj h).symm⟩
  · have : (oneSlot ch g).channel n = calm.channel n := State.setChannel_channel_ne calm (some ch) hn
    rw [this] at h
    have none : ∀ n, calm.channel n = none := by decide +kernel
    rw [none n] at h
    exact absurd h (by simp)

theorem oneSlot_segment {ch : Channel} {g g' : Segment} {h : Handle} (e : (oneSlot ch g).segment h = some g') :
    h = 0 ∧ g' = g := by
  by_cases hh : h = 0
  · subst hh
    have : (oneSlot ch g).segment 0 = some g := State.setSegment_segment_self _ 0 (some g)
    rw [this] at e
    exact ⟨rfl, (Option.some.inj e).symm⟩
  · have none : (oneSlot ch g).segment h = none := by
      refine (State.setSegment_segment_ne { withSlot calm 0 ch with
        pool := (withSlot calm 0 ch).pool.allocate 0 .p0 0 3 } (some g) hh).trans ?_
      have other : (0 : Nat) ≠ h.val := fun e => hh (Fin.ext e.symm)
      exact (Vector.getElem_set_ne (i := 0) (by decide) h.isLt other).trans (Vector.getElem_replicate h.isLt)
    rw [none] at e
    exact absurd e (by simp)

/-- A conduit of port 0 whose members have accepted with limits 4 and 64. -/
theorem oneSlot_conduitLaw {ch : Channel} {g : Segment} {f : Flow} (flow : ch.stage.flow? = some f)
    (producer : ch.producer = .p0)
    (members : 1 ≤ ch.members.length ∧ (ch.memberPorts.map Port.toNat).Pairwise (· < ·) ∧
      ∀ m ∈ ch.memberPorts, m = .p1 ∨ m = .p2)
    (requested : ch.requestedWindow = 4 ∧ ch.requestedSize = 64 ∧ ch.holdLimit = 0)
    (answered : ∀ e ∈ ch.members, e.answer = .accepted 4 64 ∧ e.holds.length ≤ 4 ∧ e.lapsed.length ≤ 4)
    (present : (∀ f, ch.stage ≠ .draining f) → ch.producerPresent = true)
    (undrained : (∀ f, ch.stage ≠ .opened f) → ch.drained = false)
    (effective : 1 ≤ f.window ∧ f.window ≤ 16 ∧ 1 ≤ f.maxSize ∧ f.maxSize ≤ 1024) : ConduitLaw (oneSlot ch g) := by
  intro n ch' h
  obtain ⟨rfl, rfl⟩ := oneSlot_channel h
  exact
    { members := ⟨members.1, members.2.1⟩
      producerApart := by
        intro hm
        rw [producer] at hm
        rcases members.2.2 _ hm with h | h <;> cases h
      membersAttached := by
        intro m hm
        rcases members.2.2 _ hm with h | h <;> subst h <;> rfl
      producerAttached := by intro _; rw [producer]; rfl
      requested := by simp [requested]
      limits := by
        intro e he w z h
        rw [(answered e he).1] at h
        cases h
        decide
      offered := by intro d h; rw [h] at flow; cases flow
      answered := by intro _ e he; rw [(answered e he).1]; simp
      openPresent := by intro f h; exact present (by rw [h]; simp)
      drainingUndrained := by intro f h; exact undrained (by rw [h]; simp)
      kept := fun e he => (answered e he).2
      effective := by intro f' h; rw [flow] at h; cases h; exact effective }

/-- A segment that only the endpoints of the slot refer to. -/
theorem oneSlot_referenceLaw {ch : Channel} {g : Segment} {q : Half} {r : Refs} (stage : g.stage = .live q r)
    (named : g.conduit = some 0)
    (tallies : r.queue = (ch.members.map (fun e => e.queue.count 0)).sum ∧
      r.hold = (ch.members.map (fun e => e.holds.countP (fun d => d.handle == 0))).sum ∧ r.transfer = 0 ∧ 1 ≤ r.total)
    (only : ∀ e ∈ ch.members, (∀ h ∈ e.queue, h = 0) ∧ ∀ d ∈ e.holds, d.handle = 0 ∧ d.sequence = q) :
    ReferenceLaw (oneSlot ch g) := by
  have self : (oneSlot ch g).segment 0 = some g := State.setSegment_segment_self _ 0 (some g)
  have ends : (oneSlot ch g).endpoints = ch.members := by
    have : (oneSlot ch g).endpoints = ch.members ++ [] := rfl
    rw [this, List.append_nil]
  have idle : ∀ p, (oneSlot ch g).transferHandle? p = none ∧ (oneSlot ch g).fillHandle? p = none := by
    intro p; cases p <;> exact ⟨rfl, rfl⟩
  exact
    { live := by
        intro h g' q' r' e hs
        obtain ⟨rfl, rfl⟩ := oneSlot_segment e
        rw [stage] at hs
        cases hs
        refine ⟨?_, ?_, ?_, tallies.2.2.2⟩
        · rw [State.queueEntries, ends]; exact tallies.1
        · rw [State.holdEntries, ends]; exact tallies.2.1
        · rw [tallies.2.2.1]; simp [State.transfersOf, idle]
      others := by
        intro h e
        have hh : h ≠ 0 := by rintro rfl; exact e _ _ _ self stage
        refine ⟨?_, ?_, ?_⟩
        · rw [State.queueEntries, ends, List.sum_eq_zero]
          intro k hk
          obtain ⟨e, he, rfl⟩ := List.mem_map.1 hk
          exact List.count_eq_zero_of_not_mem (fun hm => hh ((only e he).1 h hm))
        · rw [State.holdEntries, ends, List.sum_eq_zero]
          intro k hk
          obtain ⟨e, he, rfl⟩ := List.mem_map.1 hk
          rw [List.countP_eq_zero]
          intro d hd hb
          exact hh ((beq_iff_eq.1 hb).symm.trans ((only e he).2 d hd).1)
        · simp [State.transfersOf, idle]
      queued := by
        intro n ch' e h hc he hq
        obtain ⟨rfl, rfl⟩ := oneSlot_channel hc
        rw [(only e he).1 h hq]
        exact ⟨g, self, named⟩
      held := by
        intro n ch' e d hc he hd
        obtain ⟨rfl, rfl⟩ := oneSlot_channel hc
        rw [((only e he).2 d hd).1, ((only e he).2 d hd).2]
        exact ⟨g, r, self, named, stage⟩
      filling := by
        intro h g' e hs
        obtain ⟨rfl, rfl⟩ := oneSlot_segment e
        rw [stage] at hs
        cases hs
      filled := by intro p h e; rw [(idle p).2] at e; cases e }

/-! ### One command at a time -/

/-- The state a command or event leaves; the state before it where it has none. -/
def after (i : Instr) (s : State) : State :=
  match exec i s with
  | .next t => t
  | .fault _ | .refused _ => s

/-- The outcome a port's record shows. -/
def outcomeOf (s : State) (p : Port) : OutcomeCode := (s.port p).outcome.outcome

/-- The kinds and fields of a port's records. -/
def eventsOf (s : State) (p : Port) : List Event := (s.events.get p).records.map (fun r => r.event)

/-- The bytes a port shifts out at positions `a` to `a + k - 1`. -/
def shifted (s : State) (p : Port) (a k : Nat) : List (Option Byte) :=
  (List.range k).map (fun i => s.shiftedOut p (a + i))

/-- The example of chapter 9: slots 0 to 10 in use, slot 11 FREE with generation 7. -/
def offerBench : State :=
  { calm with
    ports := ⟨controller .attached, controller .attached, controller .detached, controller .attached⟩
    conduits := Vector.ofFn (fun n : ConduitNo =>
      if n.val < 11 then { generation := 0, channel := some (conduitOf .p2 [member .p1 [] [] []] (.opened (flowOf 0 0 false))) }
      else { generation := 7, channel := none }) }

/-- Positions 4 to 7 are zeros, 8 is DONE, 9 conduit 11, 10 generation 8 (chapter 9, the example). -/
theorem test_offer_reply :
    shifted (after (.offer .p0 0x0A 0x01 6 300 50) offerBench) .p0 4 8 =
      [some 0, some 0, some 0, some 0, some 0x00, some 11, some 8, some 0] := by decide +kernel

/-- The same OFFER naming port 2, which is DETACHED: PEER_ABSENT, then zeros (chapter 9, the example). -/
theorem test_offer_of_an_absent_peer :
    shifted (after (.offer .p0 0x0E 0x01 6 300 50) offerBench) .p0 8 3 = [some 0x23, some 0, some 0] := by
  decide +kernel

/-- Section 11.1 at step 7: the requested window 12 and size 1024, limits 8 and 1024, 16 and 512, and port 1's answer
10 and 768. -/
def answerChannel : Channel :=
  { conduitOf .p0
      [{ member .p1 [] [] [] with answer := .pending }, { member .p2 [] [] [] with answer := .accepted 8 1024 },
       { member .p3 [] [] [] with answer := .accepted 16 512 }] (.offered 1041) with
    requestedWindow := 12
    requestedSize := 1024 }

def answerBench : State :=
  withSlot { calm with ports := PerPort.const (controller .attached) } 0 answerChannel

theorem test_answer_opens_with_the_minima :
    (after (.answer .p1 0 0 0x01 10 768) answerBench).channel 0 =
      some { answerChannel with
        members :=
          [{ member .p1 [] [] [] with answer := .accepted 10 768 }, { member .p2 [] [] [] with answer := .accepted 8 1024 },
           { member .p3 [] [] [] with answer := .accepted 16 512 }]
        stage := .opened { window := 8, maxSize := 512, nextSequence := 0, outstanding := 0, windowLatch := false } } := by
  decide +kernel

/-- Had port 1 declined, ports 0, 2 and 3 would have received DECLINED (section 11.1). -/
theorem test_answer_decline_events :
    let t := after (.answer .p1 0 0 0x02 0 0) answerBench
    (eventsOf t .p0, eventsOf t .p1, eventsOf t .p2, eventsOf t .p3) =
      ([.offerResolved 0 0 (.declined .p1)], [], [.offerResolved 0 0 (.declined .p1)],
       [.offerResolved 0 0 (.declined .p1)]) := by decide +kernel

/-- Section 11.1 at step 2: three advances after a placement of 100 ms the time remaining reads 98. -/
theorem test_time_remaining :
    State.timeRemaining { calm with time := { counter := 43, divider := 0, reset := .running } } 141 = 98 := by decide

/-- Ports as in calm, with one hold of handle 0 at port 1 and nothing else left of the segment. -/
def holdBench (latch : Bool) (window outstanding : Nat) (deadline : Option Tick) : State :=
  withSegment (withSlot calm 0
    (conduitOf .p0 [member .p1 [] [{ sequence := 0, handle := 0, deadline }] [101, 102, 103, 104],
      member .p2 [] [] []]
      (.opened { window, maxSize := 64, nextSequence := 1, outstanding, windowLatch := latch })))
    (segmentOf 0 { queue := 0, hold := 1, transfer := 0 })

/-- Section 11.2 at step 10: the last reference goes, outstanding falls below the window, the latch clears and the
producer receives WINDOW_OPEN. -/
theorem test_release_reopens_the_window :
    let t := after (.release .p1 0 0) (holdBench true 1 1 none)
    (t.segment 0 = none ∧ eventsOf t .p0 = [.windowOpen 0] ∧ outcomeOf t .p1 = .done) ∧
    (t.channel 0).map (fun ch => ch.stage) =
      some (.opened { window := 1, maxSize := 64, nextSequence := 1, outstanding := 0, windowLatch := false }) := by
  decide +kernel

/-- Section 11.3: a sequence in the lapsed list leaves it with LAPSED, and the entries after it keep their order. -/
theorem test_release_of_a_lapsed_sequence :
    let t := after (.release .p1 0 103) (holdBench false 1 1 none)
    outcomeOf t .p1 = .lapsed ∧
      (t.channel 0).map (fun ch => ch.members.map (fun e => e.lapsed)) = some [[101, 102, 104], []] := by
  decide +kernel

/-- Section 11.3 at step 8: the oldest of four is dropped, and the member hears HOLD_LAPSED. -/
theorem test_hold_lapse_drops_the_oldest :
    let t := after (.holdLapse 0 .p1 0) (holdBench false 1 1 (some 1000))
    (t.channel 0).map (fun ch => ch.members.map (fun e => e.lapsed)) = some [[102, 103, 104, 0], []] ∧
      eventsOf t .p1 = [.holdLapsed 0 0] := by decide +kernel

/-- A deadline of the next advance has no expiry yet (R180). -/
theorem test_hold_lapse_not_before_its_deadline :
    (after (.holdLapse 0 .p1 0) (holdBench false 1 1 (some 1001))).segment 0 ≠ none := by decide +kernel

/-- POST to a full window is refused and sets the latch (R61, section 11.2 at step 5). -/
theorem test_post_window_full :
    let t := after (.post .p0 0 64) (holdBench false 1 1 none)
    outcomeOf t .p0 = .windowFull ∧ ((t.channel 0).bind (fun ch => ch.stage.flow?)).map (fun f => f.windowLatch) =
      some true := by decide +kernel

/-- 200 bytes are two blocks (section 11.2): the pool gives handle 0 and charges port 0. -/
def postBench : State :=
  withSlot calm 0 { conduitOf .p0 [member .p1 [] [] []] (.opened { flowOf 0 0 false with maxSize := 256 }) with
    requestedSize := 256 }

theorem test_post_allocates :
    let t := after (.post .p0 0 200) postBench
    (t.pool.freeBlocks, t.pool.chargedBlocks.p0, t.pool.chargedDescriptors.p0, t.pool.freeList.head?) =
      (510, 2, 1, some 1) := by decide +kernel

/-- Three bytes for a length of two: EXCESS, the first two stored, ARRIVED to the empty queue (R53, R55, R64). -/
theorem test_fill_excess :
    let t := after (.fillCompletion .p0 [1, 2, 3]) (after (.post .p0 0 2) postBench)
    outcomeOf t .p0 = .excess ∧ (t.segment 0).map (fun g => g.payload) = some [1, 2] ∧
      eventsOf t .p1 = [.arrived 0] := by decide +kernel

/-- One byte for a length of two: SHORT, nothing delivered, the handle at the tail of the list (R10, R57). -/
theorem test_fill_short :
    let t := after (.fillCompletion .p0 [1]) (after (.post .p0 0 2) postBench)
    outcomeOf t .p0 = .short ∧ t.segment 0 = none ∧ t.pool.freeList.getLast? = some 0 ∧
      eventsOf t .p1 = [] := by decide +kernel

/-- The example of chapter 8, byte by byte: conduit 4, handle 17, sequence 300, length 5. -/
def takeBench : State :=
  State.setSegment
    (withSlot calm 4 (conduitOf .p0 [member .p2 [17] [{ sequence := 299, handle := 16, deadline := none }] []]
      (.opened (flowOf 301 2 false)))) 17
    (some { producer := .p0, conduit := some 4, length := 5, payload := [0xA0, 0xA1, 0xA2, 0xA3, 0xA4],
            stage := .live 300 { queue := 1, hold := 0, transfer := 0 } })

theorem test_take_reply_and_payload :
    shifted (after (.take .p2 4) takeBench) .p2 4 13 =
      [some 0x00, some 0x01, some 0x2C, some 17, some 0x00, some 5, some 0xA0, some 0xA1, some 0xA2, some 0xA3,
       some 0xA4, some 0, some 0] := by decide +kernel

/-- At the release the transfer reference goes and the handle field is absent; the hold keeps the segment. -/
theorem test_take_release :
    let t := after (.transferEnd .p2) (after (.take .p2 4) takeBench)
    (t.port .p2).outcome = { outcome := .done, command := 0x11, conduit := some 4, handle := none } ∧
      (t.segment 17).map (fun g => g.stage) = some (.live 300 { queue := 0, hold := 1, transfer := 0 }) := by
  decide +kernel

/-- PEEK leaves the queue as it is (R73). -/
theorem test_peek_keeps_the_queue :
    ((after (.peek .p2 4) takeBench).channel 4).map (fun ch => ch.members.map (fun e => e.queue)) = some [[17]] := by
  decide +kernel

/-- Port 3 of the example of section 3.5.2, with the rotation point given: conduits 2 and 11 ROUTINE, 5 and 14 URGENT,
14 with four holds. -/
def anyBench (rotation : ConduitNo) (queue5 : List Handle) : State :=
  let use := fun (k : ConduitClass) (q : List Handle) (hs : List Hold) =>
    { conduitOf .p0 [member .p3 q hs []] (.opened (flowOf 4 2 false)) with cls := k }
  let four : List Hold :=
    [⟨0, 200, none⟩, ⟨1, 201, none⟩, ⟨2, 202, none⟩, ⟨3, 203, none⟩]
  let s := { calm with ports := PerPort.const { controller .attached with rotation } }
  (withSlot (withSlot (withSlot (withSlot s 2 (use .routine [20] [])) 5 (use .urgent queue5 [])) 11
    (use .routine [21] [])) 14 (use .urgent [22] four))

/-- Step 1: the URGENT search chooses conduit 5. -/
theorem test_takeAny_prefers_urgent : (anyBench 23 [30, 31]).takeAnyChoice .p3 = some 5 := by decide +kernel

/-- Step 2: the search from 6 passes 14, whose hold set is full, and wraps to 5. -/
theorem test_takeAny_wraps_to_the_rotation_point : (anyBench 5 [31]).takeAnyChoice .p3 = some 5 := by decide +kernel

/-- Step 3: no URGENT endpoint is eligible, and 11 comes before 2 after the rotation point 5. -/
theorem test_takeAny_falls_back_to_routine : (anyBench 5 []).takeAnyChoice .p3 = some 11 := by decide +kernel

/-- The example of chapter 4 at steps 2 and 3: the record that meets 31 records becomes OVERFLOW, the next is counted. -/
theorem test_overflow :
    let q : EventQueue :=
      { records := (List.range 31).map (fun i => { number := BitVec.ofNat 8 (10 + i), event := .arrived 0 })
        counter := 41 }
    let r := (q.push (.arrived 1)).push (.arrived 2)
    r.records.length = 32 ∧ r.records.getLast? = some { number := 41, event := .overflow 2 } ∧ r.counter = 42 := by
  decide +kernel

/-- ATTEND to the port itself, and with vector 64, is refused (R103). -/
theorem test_attend_refusals :
    outcomeOf (after (.attend .p0 0 5 0) calm) .p0 = .badArgument ∧
      outcomeOf (after (.attend .p0 1 64 0) calm) .p0 = .badArgument ∧
      outcomeOf (after (.attend .p0 3 63 0) calm) .p0 = .peerAbsent := by decide +kernel

/-- ACCEPT_ATTN replies source, vector and argument (R105, R169). -/
theorem test_acceptAttn_reply :
    shifted (after (.acceptAttn .p0) bench) .p0 4 6 =
      [some 0x00, some 2, some 5, some 0x12, some 0x34, some 0] := by decide +kernel

/-- WITHDRAW_ATTN of a PENDING request (R107). -/
theorem test_withdrawAttn_removes_the_entry :
    let t := after (.withdrawAttn .p2 0) bench
    t.attention.queues.p0 = [] ∧ t.attention.pair .p2 .p0 = .none ∧ eventsOf t .p2 = [] := by decide +kernel

/-- NEXT_EVENT on an empty queue: DONE, kind NONE, the counter, zeros (R91). -/
theorem test_nextEvent_none :
    shifted (after (.nextEvent .p0) bench) .p0 4 4 = [some 0x00, some 0x00, some 0, some 0] := by decide +kernel

/-- The power-on quotas of a port as an argument of PROPOSE (R114, R176). -/
def powerOnArgument : QuotaArgument := { blocks := 128, descriptors := 64, conduits := 6 }

/-- After id 255 comes id 1 (R119), and the proposer's vote is ACCEPT (R123). -/
theorem test_propose_id_after_255 :
    let s := { calm with partition := { calm.partition with idCounter := 255 } }
    let t := after (.propose .p1 (PerPort.const powerOnArgument)) s
    t.partition.proposal.map (fun pr => (pr.id, pr.votes)) = some (1, ⟨.pending, .accept, .pending, .none⟩) ∧
      t.partition.idCounter = 1 := by decide +kernel

/-- A sum of 513 blocks is refused (R122, check 3). -/
theorem test_propose_sum_above_the_whole :
    outcomeOf (after (.propose .p1 ⟨⟨129, 64, 6⟩, powerOnArgument, powerOnArgument, powerOnArgument⟩) calm) .p1 =
      .badArgument := by decide +kernel

/-- R148, R150: after byte 0 and two of the seven argument bytes of an OFFER the transaction is in its arguments phase
with three complete bytes, and a release of select there is TRUNCATED (R152). -/
theorem test_arguments_phase :
    let u := calm.shiftInAll .p0 [0x08, 0x06, 0x01]
    ((u.port .p0).transaction.map (fun x => (x.phase, x.byteCount))) = some (.arguments 0x08 [0x06, 0x01], 3) ∧
      outcomeOf u .p0 = .done ∧
      ((after (.transferEnd .p0) u).port .p0).outcome =
        { outcome := .truncated, command := 0x08, conduit := none, handle := none } := by decide +kernel

/-- A departure by the reset line in the arguments phase executes nothing of the command (R140). -/
theorem test_reset_in_the_arguments_phase :
    let t := after (.portResetAsserted .p0) (calm.shiftInAll .p0 [0x18, 1, 5, 0x12])
    (t.port .p0).transaction = none ∧ outcomeOf t .p0 = .done ∧ t.attention.pair .p0 .p1 = .none := by decide +kernel

/-- Section 11.1: where the counter reaches the target before the last answer is taken, all the ports hear LAPSED and
the answer is refused WRONG_STATE. -/
theorem test_advance_lapses_the_offer :
    let s := withSlot { calm with ports := PerPort.const (controller .attached) } 0
      { answerChannel with stage := .offered 1001 }
    let t := after .intervalAdvance s
    (t.channel 0 = none ∧ [Port.p0, .p1, .p2, .p3].map (eventsOf t) =
      List.replicate 4 [.offerResolved 0 0 .lapsed]) ∧
      outcomeOf (after (.answer .p1 0 0 0x01 10 768) t) .p1 = .wrongState := by decide +kernel

/-- Where the row of the expiry stands directly behind the advance, the advance leaves it to that row. -/
theorem test_advance_leaves_an_expiry_to_its_row :
    let s := withSlot { calm with pending := [.offerLapse 0] } 0
      { conduitOf .p0 [{ member .p1 [] [] [] with answer := .pending }] (.offered 1001) with holdLimit := 3 }
    let t := after .intervalAdvance s
    t.dueExpiries = [.offer 0] ∧ (after (.offerLapse 0) t).channel 0 = none := by decide +kernel

/-- DETACH shows DONE for STATUS in the record (R139), and a peer hears PEER_DETACHED behind CONSUMER_GONE (R144). -/
theorem test_detach :
    let t := after (.detach .p1) bench
    (t.port .p1).state = .detached ∧ (t.port .p1).outcome = OutcomeRecord.initial ∧
      eventsOf t .p0 = [.consumerGone 0 .p1 .departed, .peerDetached .p1 .detach] := by decide +kernel

/-- The end of the start-up interval: released ports become DETACHED, the others stay HELD (R184). -/
theorem test_end_of_start_up :
    let held := { controller .held with transaction := none }
    let s := { State.reset with
      ports := ⟨held, { held with resetAsserted := true }, held, held⟩
      time := { counter := 0, divider := 0, reset := .startUp } }
    let t := after .endOfStartUp s
    ((t.port .p0).state, (t.port .p1).state, t.time.counter) = (.detached, .held, 1) := by decide +kernel

/-- A port that shows STARTING refuses a STATUS with NOT_READY at position 4 (R155, R161). -/
theorem test_status_while_starting :
    let held := controller .held
    let s := { State.reset with
      ports := PerPort.const held
      time := { counter := 0, divider := 0, reset := .startUp } }
    shifted (after (.status .p0) s) .p0 4 2 = [some 0x13, some 0] := by decide +kernel

/-- The step runs the front of the queue, and idles one clock period on an empty one. -/
theorem test_step :
    step { calm with pending := [.status .p0] } = exec (.status .p0) calm ∧
      step calm = .next { calm with time := { calm.time with divider := 1 } } := by
  constructor
  · rfl
  · have due : calm.dueExpiries = [] := by decide +kernel
    have still : calm.expireDue = calm := by
      simp only [State.expireDue, State.expireDueBut, State.dueBut, due]
      rfl
    show Host.Outcome.next calm.referencePeriod = _
    have running : calm.time.reset = .running := rfl
    simp only [State.referencePeriod, running, still]
    rw [if_pos (by decide)]
    rfl

/-! ### Witnesses: states and operands that meet the hypotheses of each statement -/

/-- Port 3 of calm is DETACHED and awaits a command; ports 0 to 2 are ATTACHED and await one. -/
theorem calm_awaits : calm.Awaits .p0 .attached ∧ calm.Awaits .p1 .attached ∧ calm.Awaits .p2 .attached ∧
    calm.Awaits .p3 .detached :=
  ⟨⟨rfl, awaiting, rfl, rfl⟩, ⟨rfl, awaiting, rfl, rfl⟩, ⟨rfl, awaiting, rfl, rfl⟩, ⟨rfl, awaiting, rfl, rfl⟩⟩

theorem bench_awaits : bench.Awaits .p0 .attached ∧ bench.Awaits .p1 .attached ∧ bench.Awaits .p2 .attached ∧
    bench.Awaits .p3 .detached :=
  ⟨⟨rfl, awaiting, rfl, rfl⟩, ⟨rfl, awaiting, rfl, rfl⟩, ⟨rfl, awaiting, rfl, rfl⟩, ⟨rfl, awaiting, rfl, rfl⟩⟩

/-- The start-up interval with port 0 showing STARTING, awaiting a command, and port 1 held by its reset line. -/
def starting : State :=
  { State.reset with
    ports := ⟨controller .held, { controller .held with resetAsserted := true, transaction := none },
      { controller .held with transaction := none }, { controller .held with transaction := none }⟩
    time := { counter := 0, divider := 7999, reset := .startUp } }

theorem starting_awaits : starting.Awaits .p0 .starting := ⟨rfl, awaiting, rfl, rfl⟩

/-- Calm with port 0's transaction in another phase. -/
def inPhase (phase : Phase) : State :=
  calm.setPort .p0 { controller .attached with transaction := some { awaiting with phase, byteCount := 4 } }

theorem test_witness_StepTakesTheFrontCommand :
    ({ calm with pending := [.status .p0, .attach .p3] } : State).pending = .status .p0 :: [.attach .p3] := rfl

theorem test_witness_IdleStepIsOneClockPeriod :
    (State.reset.pending = [] ∧ State.reset.time.reset = .held) ∧
    (calm.pending = [] ∧ calm.time.reset ≠ .held ∧ calm.dueExpiries = [] ∧ calm.time.divider + 1 < 8000) ∧
    (let s := { calm with time := { calm.time with divider := 7998 } }
     s.pending = [] ∧ s.time.reset ≠ .held ∧ s.dueExpiries = [] ∧ s.time.divider + 1 < 8000) ∧
    (let s := { calm with time := { calm.time with divider := 7999 } }
     s.pending = [] ∧ s.time.reset = .running ∧ s.dueExpiries = [] ∧ 8000 ≤ s.time.divider + 1) ∧
    (starting.pending = [] ∧ starting.time.reset = .startUp ∧ starting.dueExpiries = [] ∧
      8000 ≤ starting.time.divider + 1) := by
  refine ⟨⟨rfl, rfl⟩, ⟨rfl, ?_, ?_, ?_⟩, ⟨rfl, ?_, ?_, ?_⟩, ⟨rfl, rfl, ?_, ?_⟩, rfl, rfl, ?_, ?_⟩ <;> decide +kernel

theorem test_witness_EveryOccurrenceHasANextState :
    (Instr.takeAny .p0).wellFormed = true ∧ (Instr.badCommand .p0 0x00).wellFormed = false ∧
    (Instr.truncated .p0 0x11 [4]).wellFormed = false := by decide

theorem test_witness_FramesReadBackAsTheirCommands :
    (Instr.post .p1 5 200).frame = some (.post, .p1, [5, 0, 200]) ∧ (Instr.badCommand .p1 0xFF).wellFormed = true ∧
    (Instr.truncated .p1 0x20 (List.replicate 19 0)).wellFormed = true := by decide

/-- The hypotheses of every law that a step keeps, together, in a state with a segment queued, a request waiting and a
record; and so of the statements that assume some of them. -/
theorem test_witness_EveryStepKeepsTheLaws :
    PortLaw bench ∧ EventLaw bench ∧ AttentionLaw bench ∧ PartitionLaw bench ∧ AccountingLaw bench ∧ ConduitLaw bench ∧
    WindowLaw bench ∧ ReferenceLaw bench ∧ DeadlineLaw bench ∧ EntryLaw bench ∧ PayloadLaw bench ∧ PromptLaw bench ∧
    ∃ t, step bench = .next t :=
  ⟨bench_portLaw, bench_eventLaw, bench_attentionLaw, bench_partitionLaw, bench_accountingLaw, bench_conduitLaw,
   bench_windowLaw, bench_referenceLaw, bench_deadlineLaw, bench_entryLaw, bench_payloadLaw, bench_promptLaw, _, rfl⟩

/-- Port 0 has one block and one descriptor charged of 128 and 64, and one conduit of 6: 127 blocks still fit. -/
theorem test_witness_QuotaThatFitsIsAlwaysServed :
    PartitionLaw bench ∧ AccountingLaw bench ∧ bench.segmentQuotaAllows .p0 (127 * 128) = true ∧
    bench.conduitQuotaAllows .p0 = true :=
  ⟨bench_partitionLaw, bench_accountingLaw, by decide +kernel, by decide +kernel⟩

theorem test_witness_OnlyTheTimeBaseRowsMoveTime : ∃ t, exec (.detach .p0) bench = .next t := ⟨_, rfl⟩

theorem test_witness_OnePortsCommandLeavesOtherPortControllers :
    (∃ t, exec (.detach .p0) bench = .next t) ∧ (Instr.detach .p0).frame = some (.detach, .p0, []) ∧
    (∃ t, exec (.portResetAsserted .p1) bench = .next t) ∧
    (∃ t, exec .intervalAdvance bench = .next t) ∧ bench.time.reset = .running :=
  ⟨⟨_, rfl⟩, rfl, ⟨_, rfl⟩, ⟨_, rfl⟩, rfl⟩

theorem test_witness_QuotasChangeOnlyByAdoption :
    ∃ t, exec (.propose .p0 (PerPort.const powerOnArgument)) bench = .next t := ⟨_, rfl⟩

theorem test_witness_GenerationMovesOnlyAtAnOffer : ∃ t, exec (.offer .p0 0x02 1 1 1 0) bench = .next t := ⟨_, rfl⟩

theorem test_witness_LiveSegmentsKeepTheirContents :
    AccountingLaw bench ∧ ReferenceLaw bench ∧ (∃ t, exec (.take .p1 0) bench = .next t) ∧
    bench.segment 0 = some benchSegment ∧ benchSegment.stage = .live 0 { queue := 2, hold := 0, transfer := 0 } :=
  ⟨bench_accountingLaw, bench_referenceLaw, ⟨_, rfl⟩, bench_segment_self, rfl⟩

/-- A queue of port 0 with this many ordinary records. -/
def withRecords (k : Nat) (last : List EventRecord) : State :=
  { calm with
    events := calm.events.set .p0
      { records := List.replicate k { number := 0, event := .arrived 0 } ++ last, counter := 40 } }

theorem test_witness_AppendingARecord :
    ¬ calm.Attached .p3 ∧
    (∀ k ∈ [30, 31], (withRecords k []).Attached .p0 ∧ ((withRecords k []).events.get .p0).records.length = k ∧
      ((withRecords k []).events.get .p0).records.all (fun r => !r.event.isOverflow) = true) ∧
    (∀ lost ∈ [65534, 65535], ((withRecords 31 [{ number := 39, event := .overflow lost }]).events.get .p0).records =
      List.replicate 31 { number := 0, event := .arrived 0 } ++ [{ number := 39, event := .overflow lost }]) ∧
    (List.replicate 31 ({ number := 0, event := .arrived 0 } : EventRecord)).all (fun r => !r.event.isOverflow) = true := by
  decide +kernel

/-- A claim that leaves a reference, one that leaves none, and a notice to a full and to an open window. -/
theorem test_witness_ClaimsFreeAtZeroAndReopenTheWindow :
    (bench.segment 0 = some benchSegment ∧ benchSegment.stage = .live 0 { queue := 2, hold := 0, transfer := 0 } ∧
      (Claim.flush.change { queue := 2, hold := 0, transfer := 0 }).queue ≠ 0) ∧
    ((holdBench true 1 1 none).segment 0 = some (segmentOf 0 { queue := 0, hold := 1, transfer := 0 }) ∧
      (Claim.release.change { queue := 0, hold := 1, transfer := 0 }).hold = 0) ∧
    (((holdBench true 1 1 none).channel 0).bind (fun ch => ch.stage.flow?) =
      some { window := 1, maxSize := 64, nextSequence := 1, outstanding := 1, windowLatch := true }) ∧
    (((holdBench false 1 1 none).channel 0).bind (fun ch => ch.stage.flow?) =
      some { window := 1, maxSize := 64, nextSequence := 1, outstanding := 1, windowLatch := false }) := by
  decide +kernel

/-- A DRAINING conduit of port 0 with members 1 and 2, with this queue at member 1. -/
def drainingChannel (queue : List Handle) : Channel :=
  conduitOf .p0 [member .p1 queue [] [], member .p2 [] [] []] (.draining (flowOf 1 queue.length false))

theorem test_witness_DrainCheckEndsADrainedConduit :
    ((withSlot calm 0 (drainingChannel [])).channel 0 = some (drainingChannel []) ∧
      (drainingChannel []).drained = true ∧ (drainingChannel []).producer ∉ (drainingChannel []).memberPorts ∧
      (drainingChannel []).memberPorts.Nodup) ∧
    ((withSlot calm 0 (drainingChannel [0])).channel 0 = some (drainingChannel [0]) ∧
      (∃ e ∈ (drainingChannel [0]).members, e.queue ≠ [] ∨ e.holds ≠ []) ∧
      (drainingChannel [0]).memberPorts.Nodup) := by decide +kernel

/-- A FILLING segment of port 0 for conduit 0. -/
def fillingSegment : Segment :=
  { producer := .p0, conduit := some 0, length := 3, payload := [], stage := .filling }

/-- Slots FREE, OFFERED, OPEN and DRAINING, no proposal and one, and descriptors FREE, FILLING and LIVE. -/
theorem test_witness_RecordsHaveTheirLengths :
    (3 : Nat) ≤ 3 ∧ bench.channel 23 = none ∧ bench.channel 0 = some benchChannel ∧
    benchChannel.stage.flow? = some (flowOf 1 1 false) ∧
    (∃ ch, answerBench.channel 0 = some ch ∧ ch.stage = .offered 1041) ∧
    bench.partition.proposal = none ∧
    ({ bench with partition := { bench.partition with
        proposal := some ⟨1, .p0, bench.partition.quotas, PerPort.const .accept, 7⟩ } } : State).partition.proposal =
      some ⟨1, .p0, bench.partition.quotas, PerPort.const .accept, 7⟩ ∧
    bench.segment 255 = none ∧ bench.segment 0 = some benchSegment ∧
    benchSegment.stage = .live 0 { queue := 2, hold := 0, transfer := 0 } ∧
    (oneSlot benchChannel fillingSegment).segment 0 = some fillingSegment ∧ fillingSegment.stage = .filling := by
  refine ⟨by decide, by decide +kernel, bench_channel_self, rfl, ⟨_, State.setChannel_channel_self _ _ _, rfl⟩, rfl, rfl,
    bench_segment_ne 255 (by decide), bench_segment_self, rfl, State.setSegment_segment_self _ _ _, rfl⟩

theorem test_witness_PortStateAdmitsItsCommands :
    (Instr.take .p0 4).frame = some (.take, .p0, [4]) ∧ starting.Awaits .p0 .starting ∧ calm.Awaits .p3 .detached ∧
    Command.take ∉ [Command.status, .attach, .poolInfo, .segmentInfo, .conduitInfo, .readPartition] ∧
    calm.Awaits .p0 .attached ∧ (Instr.attach .p0).frame = some (.attach, .p0, []) ∧
    State.reset.shownState .p0 = none ∧
    ((inPhase .reply).port .p0).transaction = some { awaiting with phase := .reply, byteCount := 4 } ∧
    ((inPhase .payload).port .p0).transaction = some { awaiting with phase := .payload, byteCount := 4 } ∧
    ((inPhase .payload).shownState .p0).isSome = true ∧
    ((inPhase (.arguments 0x18 [1, 5])).port .p0).transaction =
      some { awaiting with phase := .arguments Command.attend.code [1, 5], byteCount := 4 } ∧
    (Instr.attend .p0 1 5 0x1234).frame = some (.attend, .p0, [1, 5] ++ [0x12, 0x34]) ∧
    ((inPhase (.arguments 0x18 [1, 5])).shownState .p0).isSome = true :=
  ⟨rfl, starting_awaits, calm_awaits.2.2.2, by decide, calm_awaits.1, rfl, rfl, rfl, rfl, rfl, rfl, rfl, rfl⟩

/-- The numbers 24 and 23 on either side of the bound, with slot 23 FREE. -/
theorem test_witness_ConduitNumberAndSlotAreCheckedFirst :
    (Instr.close .p0 24).frame = some (.close, .p0, [24]) ∧ namesConduit .close = true ∧ 23 < (24 : Byte).toNat ∧
    (23 : Byte).toNat = (23 : ConduitNo).val ∧ calm.channel 23 = none ∧ calm.Awaits .p0 .attached ∧
    calm.Awaits .p3 .detached ∧ starting.Awaits .p0 .starting ∧
    (Instr.conduitInfo .p3 23).frame = some (.conduitInfo, .p3, [23]) :=
  ⟨rfl, rfl, by decide, rfl, by decide +kernel, calm_awaits.1, calm_awaits.2.2.2, starting_awaits, rfl⟩

theorem test_witness_RefusedReadsChangeNothing :
    (Instr.take .p0 5).frame = some (.take, .p0, [5]) ∧ calm.Awaits .p0 .attached ∧
    ∃ t, exec (.take .p0 5) calm = .next t ∧ (t.port .p0).outcome.outcome ≠ .done :=
  ⟨rfl, calm_awaits.1, _, rfl, by decide +kernel⟩

theorem starting_portLaw : PortLaw starting where
  heldByReset := by intro p; cases p <;> decide +kernel
  heldBeforeOperation := by intro _ p; cases p <;> rfl
  heldOnlyByReset := by intro h; exact absurd h (by decide +kernel)
  silentWhileIgnored := by intro p; cases p <;> decide +kernel
  rotationRests := by intro p; cases p <;> decide +kernel
  idleWhileDetached := by intro p; cases p <;> decide +kernel
  readEnds := by intro p; cases p <;> decide +kernel
  fillsArePosts := by
    intro p x hx hp
    cases p
    · cases Option.some.inj hx
      exact absurd hp (by decide)
    all_goals cases hx

theorem test_witness_StatusChangesNothing :
    (PortLaw bench ∧ bench.Awaits .p3 .detached ∧ (bench.port .p3).transaction = some awaiting) ∧
    (PortLaw starting ∧ starting.Awaits .p0 .starting ∧ (starting.port .p0).transaction = some awaiting) :=
  ⟨⟨bench_portLaw, bench_awaits.2.2.2, rfl⟩, starting_portLaw, starting_awaits, rfl⟩

theorem test_witness_AttachJoinsTheExchange : bench.Awaits .p3 .detached := bench_awaits.2.2.2

theorem test_witness_DetachDeparts : ConduitLaw bench ∧ ReferenceLaw bench ∧ bench.Awaits .p0 .attached :=
  ⟨bench_conduitLaw, bench_referenceLaw, bench_awaits.1⟩

theorem test_witness_PortResetHoldsAndReleasesThePort :
    (PortLaw bench ∧ bench.Attached .p1 ∧ ConduitLaw bench ∧ ReferenceLaw bench) ∧
    (bench.port .p3).state = .detached ∧
    (PortLaw starting ∧ (starting.port .p0).state = .held ∧ (starting.shownState .p0).isSome = true) ∧
    starting.shownState .p1 = none ∧
    (after (.post .p0 0 2) postBench).fillHandle? .p0 = some 0 ∧
    (after (.take .p2 4) takeBench).transferHandle? .p2 = some 17 ∧
    (PortLaw bench ∧ bench.fillHandle? .p0 = none ∧ bench.transferHandle? .p0 = none) ∧
    ((starting.port .p1).resetAsserted = true ∧ starting.time.reset ≠ .running) ∧
    (let s := after .intervalAdvance starting
     (s.port .p1).resetAsserted = true ∧ s.time.reset = .running ∧ (s.port .p0).resetAsserted = false) :=
  ⟨⟨bench_portLaw, rfl, bench_conduitLaw, bench_referenceLaw⟩, rfl, ⟨starting_portLaw, rfl, rfl⟩, rfl,
   by decide +kernel, by decide +kernel, ⟨bench_portLaw, by decide +kernel, by decide +kernel⟩, by decide +kernel,
   by decide +kernel⟩

theorem test_witness_SelectBeginsATransaction :
    (let s := calm.endTransaction .p0
     s.shownState .p0 = some .attached ∧ (s.port .p0).transaction = none) ∧
    State.reset.shownState .p0 = none ∧
    ((calm.port .p0).transaction ≠ none ∧ (calm.shownState .p0).isSome = true ∧
      ∃ t, exec (.transferEnd .p0) calm = .next t) :=
  ⟨⟨rfl, rfl⟩, rfl, by decide +kernel, rfl, _, rfl⟩

theorem test_witness_FramingRefusalsWriteTheRecord :
    calm.Awaits .p3 .detached ∧ Command.ofCode? 0x04 = none ∧ Command.ofCode? 0x15 = some .release ∧
    [(4 : Byte), 0].length < Command.release.argumentCount ∧ ([] : List Byte).length < Command.close.argumentCount ∧
    (Instr.release .p3 4 7).frame = some (.release, .p3, [4, 0, 7]) :=
  ⟨calm_awaits.2.2.2, by decide, by decide, by decide, by decide, by decide⟩

theorem test_witness_QueriesReadAndChangeNothing :
    bench.Awaits .p3 .detached ∧ (0 : Byte).toNat = (0 : ConduitNo).val ∧ (23 : Byte).toNat = (23 : ConduitNo).val ∧
    (255 : Byte).toNat = (255 : Handle).val :=
  ⟨bench_awaits.2.2.2, rfl, rfl, rfl⟩

theorem test_witness_NextEventPopsTheOldest :
    bench.Awaits .p1 .attached ∧ (bench.events.get .p1).records = [{ number := 6, event := .arrived 0 }] ∧
    bench.Awaits .p0 .attached ∧ (bench.events.get .p0).records = [] :=
  ⟨bench_awaits.2.1, rfl, bench_awaits.1, rfl⟩

/-- Calm with no conduit quota left to port 0. -/
def quotaless : State :=
  { calm with partition := { calm.partition with quotas := calm.partition.quotas.set .p0 ⟨0, 0, 0⟩ } }

theorem test_witness_OfferTakesTheLowestFreeSlot :
    calm.Awaits .p0 .attached ∧
    (¬ (0x10 : Byte).toNat < 16 ∧ membersOf 0x00 = [] ∧ Port.p0 ∈ membersOf 0x01) ∧
    ((0x0E : Byte).toNat < 16 ∧ membersOf 0x0E ≠ [] ∧ Port.p0 ∉ membersOf 0x0E ∧
      ∃ m ∈ membersOf 0x0E, ¬ calm.Attached m) ∧
    ((∀ m ∈ membersOf 0x06, calm.Attached m) ∧ membersOf 0x06 ≠ [] ∧ Port.p0 ∉ membersOf 0x06 ∧
      (17 : Byte).toNat > 16 ∧ (1025 : Half).toNat > 1024 ∧ (1001 : Half).toNat > 1000) ∧
    ((16 : Byte).toNat ≤ 16 ∧ 1 ≤ (1 : Half).toNat ∧ (1024 : Half).toNat ≤ 1024 ∧ (1000 : Half).toNat ≤ 1000) ∧
    (quotaless.Awaits .p0 .attached ∧ (∀ m ∈ membersOf 0x06, quotaless.Attached m) ∧
      (quotaless.partition.quotas.get .p0).conduits < quotaless.chargedConduits .p0 + 1) ∧
    (offerBench.Awaits .p0 .attached ∧ (∀ m ∈ membersOf 0x0A, offerBench.Attached m) ∧
      offerBench.chargedConduits .p0 + 1 ≤ (offerBench.partition.quotas.get .p0).conduits ∧
      offerBench.channel 11 = none ∧ ∀ m : ConduitNo, m < 11 → offerBench.channel m ≠ none) := by
  refine ⟨calm_awaits.1, by decide, by decide +kernel, by decide +kernel, by decide,
    ⟨⟨rfl, awaiting, rfl, rfl⟩, by decide +kernel, by decide +kernel⟩, ⟨rfl, awaiting, rfl, rfl⟩, by decide +kernel,
    by decide +kernel, by decide +kernel, by decide +kernel⟩

theorem answerBench_awaits : answerBench.Awaits .p0 .attached ∧ answerBench.Awaits .p1 .attached ∧
    answerBench.Awaits .p2 .attached :=
  ⟨⟨rfl, awaiting, rfl, rfl⟩, ⟨rfl, awaiting, rfl, rfl⟩, ⟨rfl, awaiting, rfl, rfl⟩⟩

/-- A slot OFFERED to ports 1 and 2, both PENDING. -/
def twoPending : Channel :=
  conduitOf .p0 [{ member .p1 [] [] [] with answer := .pending }, { member .p2 [] [] [] with answer := .pending }]
    (.offered 1100)

theorem test_witness_AnswerAcceptsOrDeclines :
    (answerBench.Awaits .p1 .attached ∧ answerBench.channel 0 = some answerChannel ∧
      (1 : Byte) ≠ (answerBench.conduit 0).generation) ∧
    (bench.channel 0 = some benchChannel ∧ benchChannel.stage.flow? ≠ none ∧ (0 : Byte) = (bench.conduit 0).generation) ∧
    (answerBench.Awaits .p0 .attached ∧ Port.p0 ∉ answerChannel.memberPorts ∧ answerChannel.stage.flow? = none) ∧
    (answerBench.Awaits .p2 .attached ∧
      answerChannel.endpoint? .p2 = some { member .p2 [] [] [] with answer := .accepted 8 1024 }) ∧
    (answerChannel.endpoint? .p1 = some { member .p1 [] [] [] with answer := .pending } ∧
      answerChannel.stage = .offered 1041 ∧ (0 : Byte) = (answerBench.conduit 0).generation ∧
      answerChannel.producer ∉ answerChannel.memberPorts ∧ answerChannel.memberPorts.Nodup ∧
      ∀ x ∈ answerChannel.members, x.port ≠ .p1 → x.answer ≠ .pending) ∧
    ((withSlot calm 0 twoPending).Awaits .p1 .attached ∧ (withSlot calm 0 twoPending).channel 0 = some twoPending ∧
      twoPending.endpoint? .p1 = some { member .p1 [] [] [] with answer := .pending } ∧
      (∃ x ∈ twoPending.members, x.port ≠ .p1 ∧ x.answer = .pending) ∧
      twoPending.producer ∉ twoPending.memberPorts ∧ twoPending.memberPorts.Nodup) := by
  refine ⟨⟨answerBench_awaits.2.1, by decide +kernel, by decide +kernel⟩,
    ⟨bench_channel_self, by decide, by decide +kernel⟩, ⟨answerBench_awaits.1, by decide, by decide⟩,
    ⟨answerBench_awaits.2.2, by decide⟩, by decide +kernel, ⟨rfl, awaiting, rfl, rfl⟩, by decide +kernel⟩

/-- An OPEN conduit of port 0 with nothing queued or held. -/
def emptyChannel : Channel :=
  conduitOf .p0 [member .p1 [] [] [], member .p2 [] [] []] (.opened (flowOf 0 0 false))

theorem test_witness_CloseWithdrawsOrDrains :
    (bench.Awaits .p1 .attached ∧ bench.channel 0 = some benchChannel ∧
      ¬ (benchChannel.producer = .p1 ∧ benchChannel.producerPresent = true)) ∧
    ((withSlot calm 0 twoPending).Awaits .p0 .attached ∧ (withSlot calm 0 twoPending).channel 0 = some twoPending ∧
      twoPending.stage = .offered 1100 ∧ twoPending.producer = .p0 ∧ twoPending.producerPresent = true ∧
      Port.p0 ∉ twoPending.memberPorts ∧ twoPending.memberPorts.Nodup) ∧
    (bench.Awaits .p0 .attached ∧ benchChannel.stage = .opened (flowOf 1 1 false) ∧
      (∃ e ∈ benchChannel.members, e.queue ≠ [] ∨ e.holds ≠ []) ∧ benchChannel.memberPorts.Nodup) ∧
    ((withSlot calm 0 emptyChannel).Awaits .p0 .attached ∧
      (withSlot calm 0 emptyChannel).channel 0 = some emptyChannel ∧
      (∀ e ∈ emptyChannel.members, e.queue = [] ∧ e.holds = []) ∧ emptyChannel.memberPorts.Nodup) ∧
    ((withSlot calm 0 (drainingChannel [0])).Awaits .p0 .attached ∧
      (drainingChannel [0]).stage = .draining (flowOf 1 1 false)) := by
  refine ⟨⟨bench_awaits.2.1, bench_channel_self, by decide⟩, ⟨⟨rfl, awaiting, rfl, rfl⟩, by decide +kernel⟩,
    ⟨bench_awaits.1, by decide⟩, ⟨⟨rfl, awaiting, rfl, rfl⟩, by decide +kernel⟩, ⟨rfl, awaiting, rfl, rfl⟩, by decide⟩

theorem oneSlot_awaits (ch : Channel) (g : Segment) :
    (oneSlot ch g).Awaits .p0 .attached ∧ (oneSlot ch g).Awaits .p1 .attached ∧ (oneSlot ch g).channel 0 = some ch :=
  ⟨⟨rfl, awaiting, rfl, rfl⟩, ⟨rfl, awaiting, rfl, rfl⟩, State.setChannel_channel_self calm 0 (some ch)⟩

/-- Window 1, full, with the latch set. -/
def latchedFlow : Flow := { window := 1, maxSize := 64, nextSequence := 1, outstanding := 1, windowLatch := true }

/-- A segment that port 1 alone has queued. -/
def queuedOnce : Segment := segmentOf 0 { queue := 1, hold := 0, transfer := 0 }

/-- Port 1 has handle 0 queued, port 2 nothing. -/
def leaveChannel (stage : Stage) : Channel := conduitOf .p0 [member .p1 [0] [] [], member .p2 [] [] []] stage

/-- Port 1 alone, with handle 0 queued. -/
def lastChannel (stage : Stage) : Channel := conduitOf .p0 [member .p1 [0] [] []] stage

theorem oneSlot_queuedOnce (ch : Channel)
    (h : ch.members = [member .p1 [0] [] [], member .p2 [] [] []] ∨ ch.members = [member .p1 [0] [] []]) :
    ReferenceLaw (oneSlot ch queuedOnce) := by
  refine oneSlot_referenceLaw (q := 0) rfl rfl ?_ ?_ <;> rcases h with h | h <;> rw [h] <;> decide +kernel

/-- A freeing of one descriptor: handle 0, whose one queue reference goes. -/
theorem oneSlot_freedBy (ch : Channel) : (oneSlot ch queuedOnce).freedBy (fun h => [0].count h)
    (fun h => ([] : List Hold).countP (fun d => d.handle == h)) = 1 := by
  have self : (oneSlot ch queuedOnce).segment 0 = some queuedOnce := State.setSegment_segment_self _ 0 (some queuedOnce)
  have none : ∀ h, h ≠ 0 → (oneSlot ch queuedOnce).segment h = none := by
    intro h hh
    cases e : (oneSlot ch queuedOnce).segment h with
    | none => rfl
    | some g => exact absurd (oneSlot_segment e).1 hh
  have all : ∀ h : Handle, ((oneSlot ch queuedOnce).segment h).any
      (fun g => (g.less ([0].count h) (([] : List Hold).countP (fun d => d.handle == h))).isNone) = (h == 0) := by
    intro h
    by_cases hh : h = 0
    · subst hh; rw [self]; decide
    · rw [none h hh]; simp [hh]
  unfold State.freedBy
  simp only [all]
  decide +kernel

/-- The members of the witnesses of LEAVE and FLUSH, an OPEN or DRAINING stage with this flow. -/
theorem leave_conduitLaw (stage : Stage) (f : Flow) (flow : stage.flow? = some f)
    (effective : 1 ≤ f.window ∧ f.window ≤ 16 ∧ 1 ≤ f.maxSize ∧ f.maxSize ≤ 1024) :
    ConduitLaw (oneSlot (leaveChannel stage) queuedOnce) ∧ ConduitLaw (oneSlot (lastChannel stage) queuedOnce) :=
  ⟨oneSlot_conduitLaw (ch := leaveChannel stage) flow rfl
      (by simp [leaveChannel, conduitOf, member, Channel.memberPorts, Port.toNat]) ⟨rfl, rfl, rfl⟩
      (by simp [leaveChannel, conduitOf, member]) (fun _ => rfl) (fun _ => rfl) effective,
   oneSlot_conduitLaw (ch := lastChannel stage) flow rfl
      (by simp [lastChannel, conduitOf, member, Channel.memberPorts, Port.toNat]) ⟨rfl, rfl, rfl⟩
      (by simp [lastChannel, conduitOf, member]) (fun _ => rfl) (fun _ => rfl) effective⟩

/-- A port with no endpoint and a member of an OFFERED conduit; then a member that is not the last, without a freeing
and with one that reopens the window; the last member, of an OPEN and of a latched conduit; the last that queues in a
DRAINING one; and a DRAINING conduit without its producer. -/
theorem test_witness_LeaveRemovesTheMember :
    (bench.Awaits .p0 .attached ∧ bench.channel 0 = some benchChannel ∧ Port.p0 ∉ benchChannel.memberPorts) ∧
    ((withSlot calm 0 twoPending).Awaits .p1 .attached ∧ (withSlot calm 0 twoPending).channel 0 = some twoPending ∧
      Port.p1 ∈ twoPending.memberPorts ∧ twoPending.stage = .offered 1100) ∧
    (ConduitLaw bench ∧ ReferenceLaw bench ∧ bench.Awaits .p1 .attached ∧ (0 : Byte).toNat = (0 : ConduitNo).val ∧
      bench.channel 0 = some benchChannel ∧ benchChannel.stage.flow? = some (flowOf 1 1 false) ∧
      benchChannel.endpoint? .p1 = some (member .p1 [0] [] []) ∧
      (∃ x ∈ benchChannel.members, x.port ≠ .p1 ∧ benchChannel.stage = .opened (flowOf 1 1 false))) ∧
    (∀ stage ∈ [Stage.opened latchedFlow, .draining (flowOf 1 1 false)], ∀ ch ∈ [leaveChannel stage, lastChannel stage],
      ConduitLaw (oneSlot ch queuedOnce) ∧ ReferenceLaw (oneSlot ch queuedOnce) ∧
      (oneSlot ch queuedOnce).Awaits .p1 .attached ∧ (oneSlot ch queuedOnce).channel 0 = some ch ∧
      ch.endpoint? .p1 = some (member .p1 [0] [] []) ∧
      (oneSlot ch queuedOnce).freedBy (fun h => [0].count h)
        (fun h => ([] : List Hold).countP (fun d => d.handle == h)) = 1) ∧
    (latchedFlow.windowLatch = true ∧ latchedFlow.outstanding - 1 < latchedFlow.window) ∧
    ((leaveChannel (.draining (flowOf 1 1 false))).endsWithout .p1 = true ∧
      (lastChannel (.opened latchedFlow)).endsWithout .p1 = true ∧
      (leaveChannel (.opened latchedFlow)).endsWithout .p1 = false) ∧
    (let ch := { leaveChannel (.draining (flowOf 1 1 false)) with producerPresent := false }
     ConduitLaw (oneSlot ch queuedOnce) ∧ ReferenceLaw (oneSlot ch queuedOnce) ∧ ch.producerPresent = false ∧
      (oneSlot ch queuedOnce).Awaits .p1 .attached ∧ (oneSlot ch queuedOnce).channel 0 = some ch) := by
  have open' := leave_conduitLaw (.opened latchedFlow) latchedFlow rfl (by decide)
  have drain := leave_conduitLaw (.draining (flowOf 1 1 false)) (flowOf 1 1 false) rfl (by decide)
  refine ⟨⟨bench_awaits.1, bench_channel_self, by decide⟩,
    ⟨⟨rfl, awaiting, rfl, rfl⟩, State.setChannel_channel_self _ _ _, by decide, rfl⟩,
    ⟨bench_conduitLaw, bench_referenceLaw, bench_awaits.2.1, rfl, bench_channel_self, rfl, by decide, by decide⟩,
    ?_, by decide, by decide, ?_, oneSlot_queuedOnce _ (.inl rfl), rfl, (oneSlot_awaits _ _).2.1,
    (oneSlot_awaits _ _).2.2⟩
  · intro stage hs ch hc
    simp only [List.mem_cons, List.not_mem_nil, or_false] at hs hc
    rcases hs with rfl | rfl <;> rcases hc with rfl | rfl
    · exact ⟨open'.1, oneSlot_queuedOnce _ (.inl rfl), (oneSlot_awaits _ _).2.1, (oneSlot_awaits _ _).2.2, by decide,
        oneSlot_freedBy _⟩
    · exact ⟨open'.2, oneSlot_queuedOnce _ (.inr rfl), (oneSlot_awaits _ _).2.1, (oneSlot_awaits _ _).2.2, by decide,
        oneSlot_freedBy _⟩
    · exact ⟨drain.1, oneSlot_queuedOnce _ (.inl rfl), (oneSlot_awaits _ _).2.1, (oneSlot_awaits _ _).2.2, by decide,
        oneSlot_freedBy _⟩
    · exact ⟨drain.2, oneSlot_queuedOnce _ (.inr rfl), (oneSlot_awaits _ _).2.1, (oneSlot_awaits _ _).2.2, by decide,
        oneSlot_freedBy _⟩
  · exact oneSlot_conduitLaw (ch := { leaveChannel (.draining (flowOf 1 1 false)) with producerPresent := false })
      (f := flowOf 1 1 false) rfl rfl (by decide) ⟨rfl, rfl, rfl⟩ (by decide) (fun h => absurd rfl (h _)) (fun _ => rfl)
      (by decide)

/-- R43, R44: CONSUMER_GONE, then WINDOW_OPEN, then CONDUIT_ENDED; and DRAINED to the producer and the member that
remains. -/
theorem test_leave_records :
    (eventsOf (after (.leave .p1 0) (oneSlot (lastChannel (.opened latchedFlow)) queuedOnce)) .p0 =
      [.consumerGone 0 .p1 .left, .windowOpen 0, .conduitEnded 0 0 .noConsumers]) ∧
    (let t := after (.leave .p1 0) (oneSlot (leaveChannel (.draining (flowOf 1 1 false))) queuedOnce)
     eventsOf t .p0 = [.consumerGone 0 .p1 .left, .conduitEnded 0 0 .drained] ∧
      eventsOf t .p2 = [.conduitEnded 0 0 .drained] ∧ eventsOf t .p1 = [] ∧ t.segment 0 = none) := by
  decide +kernel

/-- A port that is not the producer, the producer of an OFFERED conduit; then an OPEN conduit whose window stays shut
and one whose window reopens, and a DRAINING one that ends and one that does not. -/
theorem test_witness_FlushEmptiesTheDeliveryQueues :
    (bench.Awaits .p1 .attached ∧ ¬ (benchChannel.producer = .p1 ∧ benchChannel.producerPresent = true)) ∧
    ((withSlot calm 0 twoPending).Awaits .p0 .attached ∧ (withSlot calm 0 twoPending).channel 0 = some twoPending ∧
      twoPending.producer = .p0 ∧ twoPending.producerPresent = true ∧ twoPending.stage = .offered 1100) ∧
    (ConduitLaw bench ∧ ReferenceLaw bench ∧ bench.Awaits .p0 .attached ∧ bench.channel 0 = some benchChannel ∧
      benchChannel.presentProducer .p0 = true ∧ benchChannel.stage.flow? = some (flowOf 1 1 false) ∧
      (bench.segment 0 = some benchSegment ∧ benchSegment.conduit = some 0)) ∧
    (ConduitLaw (oneSlot (leaveChannel (.opened latchedFlow)) queuedOnce) ∧
      ReferenceLaw (oneSlot (leaveChannel (.opened latchedFlow)) queuedOnce) ∧
      (oneSlot (leaveChannel (.opened latchedFlow)) queuedOnce).Awaits .p0 .attached ∧
      latchedFlow.windowLatch = true ∧ latchedFlow.outstanding - 1 < latchedFlow.window) ∧
    (ConduitLaw (oneSlot (leaveChannel (.draining (flowOf 1 1 false))) queuedOnce) ∧
      ReferenceLaw (oneSlot (leaveChannel (.draining (flowOf 1 1 false))) queuedOnce) ∧
      ∀ e ∈ (leaveChannel (.draining (flowOf 1 1 false))).members, e.holds = []) ∧
    (let g := segmentOf 0 { queue := 0, hold := 1, transfer := 0 }
     let ch := conduitOf .p0 [member .p1 [] [{ sequence := 0, handle := 0, deadline := none }] []]
       (.draining (flowOf 1 1 false))
     ConduitLaw (oneSlot ch g) ∧ ReferenceLaw (oneSlot ch g) ∧ ∃ e ∈ ch.members, e.holds ≠ []) :=
  ⟨⟨bench_awaits.2.1, by decide⟩,
   ⟨⟨rfl, awaiting, rfl, rfl⟩, State.setChannel_channel_self _ _ _, rfl, rfl, rfl⟩,
   ⟨bench_conduitLaw, bench_referenceLaw, bench_awaits.1, bench_channel_self, by decide, rfl, bench_segment_self, rfl⟩,
   ⟨(leave_conduitLaw _ latchedFlow rfl (by decide)).1, oneSlot_queuedOnce _ (.inl rfl), (oneSlot_awaits _ _).1, rfl,
     by decide⟩,
   ⟨(leave_conduitLaw _ (flowOf 1 1 false) rfl (by decide)).1, oneSlot_queuedOnce _ (.inl rfl), by decide⟩,
   ⟨oneSlot_conduitLaw (f := flowOf 1 1 false) rfl rfl (by decide) ⟨rfl, rfl, rfl⟩ (by decide) (fun _ => rfl)
      (fun _ => rfl) (by decide),
    oneSlot_referenceLaw (q := 0) rfl rfl (by decide) (by decide +kernel), by decide⟩⟩

/-- The OPEN channel of postBench. -/
def postChannel : Channel :=
  { conduitOf .p0 [member .p1 [] [] []] (.opened { flowOf 0 0 false with maxSize := 256 }) with requestedSize := 256 }

theorem test_witness_PostBeginsAFill :
    (postBench.Awaits .p0 .attached ∧ postBench.Awaits .p1 .attached ∧ postBench.channel 0 = some postChannel ∧
      postChannel.producer = .p0 ∧ postChannel.producerPresent = true ∧
      postChannel.stage = .opened { flowOf 0 0 false with maxSize := 256 } ∧ (257 : Half).toNat > 256) ∧
    ((withSlot calm 0 (drainingChannel [])).Awaits .p0 .attached ∧
      ∀ f, (drainingChannel []).stage ≠ .opened f) ∧
    ((holdBench false 1 1 none).Awaits .p0 .attached ∧
      ((holdBench false 1 1 none).channel 0).bind (fun ch => ch.stage.flow?) =
        some { window := 1, maxSize := 64, nextSequence := 1, outstanding := 1, windowLatch := false }) ∧
    (bench.sequenceInUse 0 0 = true ∧ bench.sequenceInUse 0 1 = false) ∧
    ((256 : Half) ≠ 0 ∧ (256 : Half).toNat ≤ 256 ∧ postBench.sequenceInUse 0 0 = false ∧
      postBench.pool.chargedDescriptors.get .p0 + 1 ≤ (postBench.partition.quotas.get .p0).descriptors ∧
      postBench.pool.chargedBlocks.get .p0 + (256 + 127) / 128 ≤ (postBench.partition.quotas.get .p0).blocks ∧
      postBench.pool.freeList = 0 :: postBench.pool.freeList.tail) ∧
    (quotaless.partition.quotas.get .p0).descriptors < quotaless.pool.chargedDescriptors.get .p0 + 1 := by
  refine ⟨⟨⟨rfl, awaiting, rfl, rfl⟩, ⟨rfl, awaiting, rfl, rfl⟩, by decide +kernel⟩,
    ⟨⟨rfl, awaiting, rfl, rfl⟩, by intro f h; exact absurd h (by simp [drainingChannel, conduitOf])⟩,
    ⟨⟨rfl, awaiting, rfl, rfl⟩, by decide +kernel⟩, by decide +kernel, ?_, by decide +kernel⟩
  refine ⟨by decide, by decide, by decide +kernel, by decide +kernel, by decide +kernel, rfl⟩

/-- Port 0 in the payload phase of a POST of two bytes on conduit 0. -/
def fillBench : State := after (.post .p0 0 2) postBench

/-- The same with the conduit gone. -/
def orphanBench : State := fillBench.teardown 0

theorem test_witness_FillCompletionDeliversOrFrees :
    (fillBench.fillHandle? .p0 = some 0 ∧ (fillBench.segment 0).map (fun g => (g.length, g.conduit)) = some (2, some 0) ∧
      (fillBench.port .p0).transaction.map (fun x => (x.payloadCount, x.byteCount)) = some (0, 4)) ∧
    (fillBench.channel 0).map (fun ch => (ch.memberPorts, ch.stage.flow?)) =
      some ([.p1], some { flowOf 0 1 false with maxSize := 256 }) ∧
    (orphanBench.fillHandle? .p0 = some 0 ∧ (orphanBench.segment 0).map (fun g => g.conduit) = some none) := by
  decide +kernel

theorem takeBench_awaits : takeBench.Awaits .p2 .attached := ⟨rfl, awaiting, rfl, rfl⟩

/-- The channel of takeBench with these queue and holds at port 2. -/
def takeChannel (queue : List Handle) (holds : List Hold) : Channel :=
  conduitOf .p0 [member .p2 queue holds [298]] (.opened (flowOf 301 2 false))

/-- A hold of handle 16. -/
def oldHold (q : Half) : Hold := { sequence := q, handle := 16, deadline := none }

/-- The state of the TAKE witness: handle 17 LIVE and queued, with this many holds. -/
def takeState (queue : List Handle) (holds : List Hold) : State :=
  State.setSegment (withSlot calm 4 (takeChannel queue holds)) 17
    (some { segmentOf 300 { queue := 1, hold := 1, transfer := 0 } with conduit := some 4 })

theorem takeState_awaits (queue : List Handle) (holds : List Hold) : (takeState queue holds).Awaits .p2 .attached :=
  ⟨rfl, awaiting, rfl, rfl⟩

theorem test_witness_TakeMovesTheHeadToTheHolds :
    ((takeState [] []).Awaits .p0 .attached ∧ Port.p0 ∉ (takeChannel [] []).memberPorts) ∧
    ((withSlot calm 0 twoPending).Awaits .p1 .attached ∧ Port.p1 ∈ twoPending.memberPorts ∧
      twoPending.stage = .offered 1100) ∧
    (segmentOf 300 { queue := 1, hold := 1, transfer := 0 }).payload.length = 3 ∧
    (takeState [] []).Awaits .p2 .attached ∧ (takeState [17] []).channel 4 = some (takeChannel [17] []) ∧
    (takeChannel [17] []).stage.flow? = some (flowOf 301 2 false) ∧
    (takeChannel [] []).endpoint? .p2 = some (member .p2 [] [] [298]) ∧
    (let four := [oldHold 0, oldHold 1, oldHold 2, oldHold 3]
     (takeChannel [17] four).endpoint? .p2 = some (member .p2 [17] four [298]) ∧ 4 ≤ four.length) ∧
    (let three := [oldHold 0, oldHold 1, oldHold 2]
     (takeChannel [17] three).endpoint? .p2 = some (member .p2 [17] three [298]) ∧ three.length < 4 ∧
      (takeChannel [17] three).memberPorts.Nodup) ∧
    (takeState [17] []).segment 17 =
      some { segmentOf 300 { queue := 1, hold := 1, transfer := 0 } with conduit := some 4 } :=
  ⟨⟨⟨rfl, awaiting, rfl, rfl⟩, by decide⟩, ⟨⟨rfl, awaiting, rfl, rfl⟩, by decide, rfl⟩, rfl, takeState_awaits _ _,
   by decide +kernel, rfl, by decide, by decide, by decide, by decide +kernel⟩

theorem test_witness_TakeAnyTakesByClassAndRotation :
    takeBench.Awaits .p2 .attached ∧ (takeBench.channel 4).map (fun ch => ch.memberPorts) = some [.p2] ∧
    (takeBench.waiting? .p2 4).map (fun w => (w.2.1.queue, w.2.1.holds.length, w.2.2)) = some ([17], 1, 17) ∧
    (∀ m, takeBench.eligible .p2 .urgent m = false) ∧
    (∀ m, takeBench.eligible .p2 .routine m = true → m = 4) ∧
    (takeBench.segment 17).map (fun g => (g.stage, g.length, g.payload.length)) =
      some (.live 300 { queue := 1, hold := 0, transfer := 0 }, 5, 5) :=
  ⟨takeBench_awaits, by decide +kernel, by decide +kernel, by decide +kernel, by decide +kernel, by decide +kernel⟩

theorem takeState_channel (queue : List Handle) (holds : List Hold) (n : ConduitNo) (ch : Channel)
    (h : (takeState queue holds).channel n = some ch) : n = 4 ∧ ch = takeChannel queue holds := by
  by_cases hn : n = 4
  · subst hn
    simp only [takeState, State.setSegment_channel, withSlot, State.setChannel_channel_self] at h
    exact ⟨rfl, (Option.some.inj h).symm⟩
  · simp only [takeState, State.setSegment_channel, withSlot, State.setChannel_channel_ne _ _ hn] at h
    have none : ∀ n, calm.channel n = none := by decide +kernel
    rw [none n] at h
    exact absurd h (by simp)

/-- A full hold set with a segment queued, and nothing queued. -/
theorem test_witness_TakeAnyRefusesWithoutAnEligibleEndpoint :
    (let four := [oldHold 0, oldHold 1, oldHold 2, oldHold 3]
     (takeState [17] four).Awaits .p2 .attached ∧
     (∀ n ch e, (takeState [17] four).channel n = some ch → ch.stage.flow? ≠ none → ch.endpoint? .p2 = some e →
       e.queue ≠ [] → 4 ≤ e.holds.length) ∧
     ∃ n ch e, (takeState [17] four).channel n = some ch ∧ ch.stage.flow? ≠ none ∧ ch.endpoint? .p2 = some e ∧
       e.queue ≠ []) ∧
    ((takeState [] []).Awaits .p2 .attached ∧
     ∀ n ch e, (takeState [] []).channel n = some ch → ch.stage.flow? ≠ none → ch.endpoint? .p2 = some e →
       e.queue = []) := by
  refine ⟨⟨takeState_awaits _ _, ?_, ?_⟩, takeState_awaits _ _, ?_⟩
  · intro n ch e hc _ he _
    obtain ⟨-, rfl⟩ := takeState_channel _ _ n ch hc
    have found : (takeChannel [17] [oldHold 0, oldHold 1, oldHold 2, oldHold 3]).endpoint? .p2 =
        some (member .p2 [17] [oldHold 0, oldHold 1, oldHold 2, oldHold 3] [298]) := by decide
    rw [found] at he
    obtain rfl := Option.some.inj he
    decide
  · exact ⟨4, takeChannel [17] [oldHold 0, oldHold 1, oldHold 2, oldHold 3],
      member .p2 [17] [oldHold 0, oldHold 1, oldHold 2, oldHold 3] [298], by decide +kernel, by decide, by decide,
      by decide⟩
  · intro n ch e hc _ he
    obtain ⟨-, rfl⟩ := takeState_channel _ _ n ch hc
    have found : (takeChannel [] []).endpoint? .p2 = some (member .p2 [] [] [298]) := by decide
    rw [found] at he
    obtain rfl := Option.some.inj he
    rfl

theorem test_witness_PeekAndReadHeldPlaceOnlyATransfer :
    ((takeState [] []).Awaits .p0 .attached ∧ Port.p0 ∉ (takeChannel [] []).memberPorts) ∧
    ((withSlot calm 0 twoPending).Awaits .p1 .attached ∧ Port.p1 ∈ twoPending.memberPorts) ∧
    (takeState [17] []).Awaits .p2 .attached ∧ (takeState [17] []).channel 4 = some (takeChannel [17] []) ∧
    (takeChannel [17] []).stage.flow? = some (flowOf 301 2 false) ∧
    (takeChannel [17] []).endpoint? .p2 = some (member .p2 [17] [] [298]) ∧
    (takeChannel [] []).endpoint? .p2 = some (member .p2 [] [] [298]) ∧
    (takeState [17] []).segment 17 =
      some { segmentOf 300 { queue := 1, hold := 1, transfer := 0 } with conduit := some 4 } ∧
    (let held : Hold := { sequence := 300, handle := 17, deadline := none }
     (takeChannel [] [held]).endpoint? .p2 = some (member .p2 [] [held] [298]) ∧
      [held].find? (fun d => d.sequence == 300) = some held ∧ ∀ d ∈ [held], d.sequence ≠ 301) :=
  ⟨⟨⟨rfl, awaiting, rfl, rfl⟩, by decide⟩, ⟨⟨rfl, awaiting, rfl, rfl⟩, by decide⟩, takeState_awaits _ _,
   by decide +kernel, rfl, by decide, by decide, by decide +kernel, by decide⟩

theorem test_witness_ReleaseDropsTheHold :
    ((takeState [] []).Awaits .p0 .attached ∧ Port.p0 ∉ (takeChannel [] []).memberPorts) ∧
    ((withSlot calm 0 twoPending).Awaits .p1 .attached ∧ Port.p1 ∈ twoPending.memberPorts) ∧
    (takeState [] [oldHold 5]).Awaits .p2 .attached ∧
    (takeState [] [oldHold 5]).channel 4 = some (takeChannel [] [oldHold 5]) ∧
    (takeChannel [] [oldHold 5]).endpoint? .p2 = some (member .p2 [] [oldHold 5] [298]) ∧
    (takeChannel [] [oldHold 5]).memberPorts.Nodup ∧
    [oldHold 5].find? (fun d => d.sequence == 5) = some (oldHold 5) ∧
    ((∀ d ∈ [oldHold 5], d.sequence ≠ 298) ∧ (298 : Half) ∈ [(298 : Half)]) ∧
    ((∀ d ∈ [oldHold 5], d.sequence ≠ 6) ∧ (6 : Half) ∉ [(298 : Half)]) :=
  ⟨⟨⟨rfl, awaiting, rfl, rfl⟩, by decide⟩, ⟨⟨rfl, awaiting, rfl, rfl⟩, by decide⟩, takeState_awaits _ _,
   by decide +kernel, by decide, by decide, by decide, by decide, by decide⟩

theorem test_witness_SelectReleaseEndsTheTransfer :
    (let s := after (.take .p2 4) takeBench
     s.transferHandle? .p2 = some 17 ∧ ((s.port .p2).transaction).isSome = true) ∧
    ((calm.port .p0).transaction = some awaiting ∧ calm.transferHandle? .p0 = none ∧ calm.fillHandle? .p0 = none ∧
      awaiting.phase = .command) ∧
    ((inPhase (.arguments 0x0B [])).port .p0).transaction =
      some { awaiting with phase := .arguments 0x0B [], byteCount := 4 } ∧
    (fillBench.fillHandle? .p0 = some 0 ∧ (fillBench.segment 0).map (fun g => g.payload) = some []) := by
  decide +kernel

theorem test_witness_AttendQueuesTheRequest :
    calm.Awaits .p0 .attached ∧ (3 < (4 : Byte).toNat ∧ (0 : Byte).toNat = Port.p0.toNat ∧ 63 < (64 : Byte).toNat) ∧
    ((3 : Byte).toNat = Port.p3.toNat ∧ (63 : Byte).toNat ≤ 63 ∧ ¬ calm.Attached .p3) ∧
    (bench.Awaits .p2 .attached ∧ bench.Attached .p0 ∧ bench.attention.pair .p2 .p0 = .pending) ∧
    (calm.Attached .p1 ∧ calm.attention.pair .p0 .p1 ≠ .pending) :=
  ⟨calm_awaits.1, by decide, by decide +kernel, ⟨bench_awaits.2.2.1, by decide +kernel⟩, by decide +kernel⟩

theorem test_witness_AcceptAttnTakesTheHead :
    bench.Awaits .p1 .attached ∧ bench.attention.queues.get .p1 = [] ∧ bench.Awaits .p0 .attached ∧
    bench.attention.queues.get .p0 = [{ source := .p2, vector := 5, argument := 0x1234 }] :=
  ⟨bench_awaits.2.1, rfl, bench_awaits.1, rfl⟩

theorem test_witness_WithdrawAttnEndsTheRequest :
    bench.Awaits .p2 .attached ∧ (3 < (4 : Byte).toNat ∧ (2 : Byte).toNat = Port.p2.toNat) ∧
    ((0 : Byte).toNat = Port.p0.toNat ∧ bench.attention.pair .p2 .p0 = .pending) ∧
    ((after (.acceptAttn .p0) bench).Awaits .p2 .attached ∧
      (after (.acceptAttn .p0) bench).attention.pair .p2 .p0 = .taken) ∧
    bench.attention.pair .p2 .p1 = .none :=
  ⟨bench_awaits.2.2.1, by decide, by decide +kernel, ⟨⟨by decide +kernel, awaiting, by decide +kernel, rfl⟩,
    by decide +kernel⟩, by decide +kernel⟩

/-- A pending proposal of port 0 with the power-on quotas and these votes. -/
def proposalOf (votes : PerPort Vote) (deadline : Tick) : Proposal :=
  { id := 7, proposer := .p0, quotas := calm.partition.quotas, votes, deadline }

/-- Calm with a proposal pending. -/
def withProposal (votes : PerPort Vote) (deadline : Tick) : State :=
  { calm with partition := { calm.partition with proposal := some (proposalOf votes deadline), idCounter := 7 } }

theorem withProposal_awaits (votes : PerPort Vote) (d : Tick) :
    (withProposal votes d).Awaits .p0 .attached ∧ (withProposal votes d).Awaits .p1 .attached ∧
    (withProposal votes d).Awaits .p3 .detached :=
  ⟨⟨rfl, awaiting, rfl, rfl⟩, ⟨rfl, awaiting, rfl, rfl⟩, ⟨rfl, awaiting, rfl, rfl⟩⟩

/-- Only port 0 is ATTACHED. -/
def alone : State :=
  { calm with ports := ⟨controller .attached, controller .detached, controller .detached, controller .detached⟩ }

theorem test_witness_ProposeOpensTheVote :
    ((withProposal (PerPort.const .accept) 0).Awaits .p0 .attached ∧
      (withProposal (PerPort.const .accept) 0).partition.proposal ≠ none) ∧
    (calm.Awaits .p0 .attached ∧ calm.partition.proposal = none ∧ 512 < (513 : Half).toNat ∧
      256 < (257 : Half).toNat ∧ 24 < (25 : Byte).toNat ∧ (512 : Half).toNat ≤ 512 ∧
      512 < ((⟨512, 1, 0, 0⟩ : PerPort Nat)).sum) ∧
    (bench.Awaits .p0 .attached ∧ bench.partition.proposal = none ∧ (0 : Half).toNat < bench.pool.chargedBlocks.get .p0) ∧
    (∀ v, calm.pool.chargedBlocks.get v ≤ 128 ∧ calm.pool.chargedDescriptors.get v ≤ 64 ∧ calm.chargedConduits v ≤ 6) ∧
    (Port.p1 ≠ .p0 ∧ calm.Attached .p1) ∧
    (alone.Awaits .p0 .attached ∧ ∀ v, v ≠ .p0 → ¬ alone.Attached v) := by
  refine ⟨⟨(withProposal_awaits _ _).1, by simp [withProposal]⟩,
    ⟨calm_awaits.1, rfl, by decide, by decide, by decide, by decide, by decide⟩,
    ⟨bench_awaits.1, rfl, by decide +kernel⟩, ?_, ⟨by decide, rfl⟩, ⟨rfl, awaiting, rfl, rfl⟩, ?_⟩
  · intro v; cases v <;> decide +kernel
  · intro v; cases v <;> decide +kernel

/-- A state in which port 0's charge exceeds the block quota of the pending proposal. -/
def shortState : State :=
  { withProposal ⟨.accept, .pending, .none, .none⟩ 0 with
    pool := { calm.pool with chargedBlocks := ⟨129, 0, 0, 0⟩ } }

theorem test_witness_VoteAcceptsTheProposal :
    (calm.Awaits .p1 .attached ∧ calm.partition.proposal = none) ∧
    (let s := withProposal ⟨.accept, .pending, .pending, .none⟩ 0
     s.Awaits .p1 .attached ∧ (6 : Byte) ≠ (proposalOf ⟨.accept, .pending, .pending, .none⟩ 0).id ∧
      (proposalOf ⟨.accept, .pending, .pending, .none⟩ 0).votes.get .p0 ≠ .pending ∧
      (proposalOf ⟨.accept, .pending, .pending, .none⟩ 0).votes.get .p1 = .pending ∧ (3 : Byte) ≠ 0x01 ∧
      (3 : Byte) ≠ 0x02 ∧ ∃ v, v ≠ Port.p1 ∧ (proposalOf ⟨.accept, .pending, .pending, .none⟩ 0).votes.get v = .pending) ∧
    (let s := withProposal ⟨.accept, .pending, .accept, .none⟩ 0
     s.Awaits .p1 .attached ∧ ∀ v, s.usageWithin (proposalOf ⟨.accept, .pending, .accept, .none⟩ 0).quotas v = true) ∧
    (shortState.Awaits .p1 .attached ∧
      shortState.usageWithin (proposalOf ⟨.accept, .pending, .none, .none⟩ 0).quotas .p0 = false) := by
  refine ⟨⟨calm_awaits.2.1, rfl⟩, ⟨(withProposal_awaits _ _).2.1, by decide, by decide, by decide, by decide, by decide,
    .p2, by decide, by decide⟩, ⟨(withProposal_awaits _ _).2.1, ?_⟩, ⟨rfl, awaiting, rfl, rfl⟩, by decide +kernel⟩
  intro v; cases v <;> decide +kernel

theorem test_witness_OneRejectEndsTheProposal :
    (withProposal ⟨.accept, .pending, .pending, .none⟩ 0).Awaits .p1 .attached ∧
    (withProposal ⟨.accept, .pending, .pending, .none⟩ 0).partition.proposal =
      some (proposalOf ⟨.accept, .pending, .pending, .none⟩ 0) ∧
    (7 : Byte) = (proposalOf ⟨.accept, .pending, .pending, .none⟩ 0).id ∧
    (proposalOf ⟨.accept, .pending, .pending, .none⟩ 0).votes.get .p1 = .pending :=
  ⟨(withProposal_awaits _ _).2.1, rfl, rfl, rfl⟩

theorem test_witness_CancelProposalWithdrawsIt :
    calm.Awaits .p3 .detached ∧ (calm.Awaits .p0 .attached ∧ calm.partition.proposal = none) ∧
    (let s := withProposal ⟨.accept, .pending, .pending, .none⟩ 0
     s.Awaits .p0 .attached ∧ s.Awaits .p1 .attached ∧ (8 : Byte) ≠ 7 ∧
      s.partition.proposal = some (proposalOf ⟨.accept, .pending, .pending, .none⟩ 0) ∧
      (proposalOf ⟨.accept, .pending, .pending, .none⟩ 0).proposer = .p0) :=
  ⟨calm_awaits.2.2.2, ⟨calm_awaits.1, rfl⟩, (withProposal_awaits _ _).1, (withProposal_awaits _ _).2.1, by decide, rfl,
   rfl⟩

/-- Nothing placed: every conduit free of deadlines. -/
theorem test_witness_AdvanceCountsAndEndsStartUp :
    (calm.time.reset = .running ∧ calm.dueExpiries = [] ∧ calm.placedDeadlines = []) ∧ State.reset.time.reset = .held ∧
    starting.time.reset = .startUp ∧ calm.time.reset ≠ .startUp := by decide +kernel

/-- A bench with a hold of handle 0 at port 1 and this deadline, and a proposal with that one. -/
def dueBench (hold : Option Tick) (proposal : Option Tick) (rows : List Instr) : State :=
  { oneSlot (conduitOf .p0 [member .p1 [] [{ sequence := 0, handle := 0, deadline := hold }] []]
      (.opened (flowOf 1 1 false))) (segmentOf 0 { queue := 0, hold := 1, transfer := 0 }) with
    partition := { calm.partition with
      proposal := proposal.map (fun d => proposalOf ⟨.accept, .pending, .pending, .none⟩ d)
      idCounter := 7 }
    pending := rows }

theorem dueBench_conduitLaw (hold : Option Tick) (proposal : Option Tick) (rows : List Instr) :
    ConduitLaw (dueBench hold proposal rows) := by
  have law : ConduitLaw (oneSlot (conduitOf .p0 [member .p1 [] [{ sequence := 0, handle := 0, deadline := hold }] []]
      (.opened (flowOf 1 1 false))) (segmentOf 0 { queue := 0, hold := 1, transfer := 0 })) := by
    refine oneSlot_conduitLaw (f := flowOf 1 1 false) rfl rfl ?_ ⟨rfl, rfl, rfl⟩ ?_ (fun _ => rfl) ?_ (by decide)
    · simp [conduitOf, member, Channel.memberPorts]
    · simp [conduitOf, member]
    · intro h; exact absurd rfl (h _)
  exact fun n ch h => { law n ch h with }

/-- At the next advance one deadline is reached, and two; and one whose row stands directly behind the advance. -/
theorem test_witness_AdvanceCountsAndEndsStartUp_reached :
    (∀ (h p : Option Tick) (rows : List Instr), ConduitLaw (dueBench h p rows) ∧
      (dueBench h p rows).time.reset = .running) ∧
    (let count (s : State) : State := { s with time := { counter := 1001, divider := 0, reset := .running } }
     (dueBench (some 1001) none []).dueExpiries = [] ∧
      (count (dueBench (some 1001) none [])).dueExpiries = [.hold 0 .p1 0] ∧
      (count (dueBench (some 1001) (some 1001) [])).dueExpiries = [.proposal, .hold 0 .p1 0] ∧
      leadingExpiries [.holdLapse 0 .p1 0, .status .p0, .proposalLapse] = [.hold 0 .p1 0]) :=
  ⟨fun h p rows => ⟨dueBench_conduitLaw h p rows, rfl⟩, by decide +kernel⟩

theorem test_witness_GlobalResetRestoresPowerOn :
    State.reset.time.reset = .held ∧ calm.time.reset ≠ .held := by decide +kernel

theorem test_witness_DeadlinesLapseWhenReached :
    (let ch := { twoPending with stage := .offered 1000 }
     (withSlot calm 0 ch).channel 0 = some ch ∧ ch.stage = .offered (withSlot calm 0 ch).time.counter ∧
      ch.producer ∉ ch.memberPorts ∧ ch.memberPorts.Nodup) ∧
    ((withSlot calm 0 twoPending).channel 0 = some twoPending ∧
      twoPending.stage ≠ .offered (withSlot calm 0 twoPending).time.counter) ∧
    ((withProposal ⟨.accept, .pending, .none, .none⟩ 1000).partition.proposal =
        some (proposalOf ⟨.accept, .pending, .none, .none⟩ 1000) ∧
      (proposalOf ⟨.accept, .pending, .none, .none⟩ 1000).deadline = calm.time.counter) ∧
    calm.partition.proposal = none ∧
    (let due : Hold := { sequence := 0, handle := 0, deadline := some 1000 }
     ((holdBench false 1 1 (some 1000)).channel 0).bind (fun ch => ch.endpoint? .p1) =
        some (member .p1 [] [due] [101, 102, 103, 104]) ∧
      ((holdBench false 1 1 (some 1000)).channel 0).map (fun ch => ch.memberPorts) = some [.p1, .p2] ∧
      [due].find? (fun d => d.sequence == 0 && d.deadline == some (holdBench false 1 1 (some 1000)).time.counter) =
        some due) ∧
    (let later : Hold := { sequence := 0, handle := 0, deadline := some 1001 }
     ∀ d ∈ [later], d.sequence = 0 → d.deadline ≠ some calm.time.counter) := by decide +kernel

end Sys2Proof.Tests
end

/-! ### Sums over the entries of a table -/

namespace Sys2Proof.Machine

section Totals

variable {α : Type} {k : Nat}

/-- The sum of a weight over the entries of a table. -/
def total (w : α → Nat) (v : Vector α k) : Nat := (v.toList.map w).sum

/-- A weight of 0 or 1. -/
def indicator (c : α → Bool) (a : α) : Nat := if c a = true then 1 else 0

theorem sum_map_list_set (w : α → Nat) (x : α) :
    ∀ (l : List α) (i : Nat) (hi : i < l.length),
      ((l.set i x).map w).sum + w l[i] = (l.map w).sum + w x
  | a :: l, 0, _ => by simp; omega
  | a :: l, i + 1, hi => by
    have ih := sum_map_list_set w x l i (by simpa using hi)
    simp only [List.set_cons_succ, List.map_cons, List.sum_cons, List.getElem_cons_succ]
    omega

/-- One entry replaced: the old weight goes and the new one comes. -/
theorem total_set (w : α → Nat) (v : Vector α k) (i : Nat) (hi : i < k) (x : α) :
    total w (v.set i x) + w v[i] = total w v + w x := by
  have h := sum_map_list_set w x v.toList i (by simpa using hi)
  simpa [total, Vector.toList_set] using h

theorem mem_toList_iff_getElem {v : Vector α k} {a : α} : a ∈ v.toList ↔ ∃ (i : Nat) (hi : i < k), v[i] = a := by
  simp [List.mem_iff_getElem]

/-- Two tables with the same weight at every entry have the same sum. -/
theorem total_eq_of_getElem {w u : α → Nat} {v v' : Vector α k}
    (h : ∀ (i : Nat) (hi : i < k), w v[i] = u v'[i]) : total w v = total u v' := by
  unfold total
  congr 1
  apply List.ext_getElem
  · simp
  · intro i h1 h2
    simpa using h i (by simpa using h1)

theorem total_eq_zero_iff {w : α → Nat} {v : Vector α k} :
    total w v = 0 ↔ ∀ (i : Nat) (hi : i < k), w v[i] = 0 := by
  constructor
  · intro h i hi
    have h0 : ∀ x ∈ v.toList.map w, x = 0 := by simpa [total, List.sum_eq_zero_iff] using h
    exact h0 _ (List.mem_map_of_mem (mem_toList_iff_getElem.2 ⟨i, hi, rfl⟩))
  · intro h
    apply List.sum_eq_zero
    intro x hx
    obtain ⟨a, ha, rfl⟩ := List.mem_map.1 hx
    obtain ⟨i, hi, rfl⟩ := mem_toList_iff_getElem.1 ha
    exact h i hi

theorem le_total (w : α → Nat) (v : Vector α k) (i : Nat) (hi : i < k) : w v[i] ≤ total w v :=
  List.single_le_sum (fun _ _ => Nat.zero_le _) _
    (List.mem_map_of_mem (mem_toList_iff_getElem.2 ⟨i, hi, rfl⟩))

theorem countP_toList (c : α → Bool) (v : Vector α k) : v.toList.countP c = total (indicator c) v := by
  unfold total
  induction v.toList with
  | nil => rfl
  | cons a l ih =>
    by_cases h : c a = true
    · simp [indicator, h, ih, Nat.add_comm] at ih ⊢
    · simp [indicator, h] at ih ⊢
      omega

end Totals

/-! ### What the accounts count, as sums -/

/-- What one descriptor outside FREE is charged by: its producer and its length (R6). -/
def Segment.owner (g : Segment) : Port × Nat := (g.producer, g.length)

/-- The blocks an owner's segment charges to a port (R6). -/
def blocksOf (p : Port) (o : Option (Port × Nat)) : Nat :=
  match o with
  | some (r, length) => if r = p then blockCount length else 0
  | none => 0

/-- The descriptors an owner's segment charges to a port (R6). -/
def descriptorsOf (p : Port) (o : Option (Port × Nat)) : Nat :=
  match o with
  | some (r, _) => if r = p then 1 else 0
  | none => 0

/-- The conduits a slot's producer field charges to a port (R29). -/
def conduitsOf (p : Port) (o : Option Port) : Nat := if o = some p then 1 else 0

/-- The charge weights of one table entry. -/
theorem producedBy_blocks (s : State) (p : Port) :
    ((s.producedBy p).map (fun g => blockCount g.length)).sum =
      total (fun d => blocksOf p (d.map Segment.owner)) s.pool.descriptors := by
  unfold State.producedBy total
  induction s.pool.descriptors.toList with
  | nil => rfl
  | cons d l ih =>
    cases d with
    | none => simpa [blocksOf] using ih
    | some g =>
      by_cases h : g.producer = p
      · have hf : (some g).filter (fun g => g.producer == p) = some g := by simp [h]
        rw [List.filterMap_cons_some hf, List.map_cons, List.sum_cons, ih]
        simp [blocksOf, Segment.owner, h]
      · have hf : (some g).filter (fun g => g.producer == p) = none := by simp [h]
        rw [List.filterMap_cons_none hf]
        simpa [blocksOf, Segment.owner, h] using ih

theorem producedBy_length (s : State) (p : Port) :
    (s.producedBy p).length = total (fun d => descriptorsOf p (d.map Segment.owner)) s.pool.descriptors := by
  unfold State.producedBy total
  induction s.pool.descriptors.toList with
  | nil => rfl
  | cons d l ih =>
    cases d with
    | none => simpa [descriptorsOf] using ih
    | some g =>
      by_cases h : g.producer = p
      · have hf : (some g).filter (fun g => g.producer == p) = some g := by simp [h]
        rw [List.filterMap_cons_some hf, List.length_cons, ih]
        simp [descriptorsOf, Segment.owner, h, Nat.add_comm]
      · have hf : (some g).filter (fun g => g.producer == p) = none := by simp [h]
        rw [List.filterMap_cons_none hf]
        simpa [descriptorsOf, Segment.owner, h] using ih

theorem chargedConduits_eq (s : State) (p : Port) :
    s.chargedConduits p = total (fun c => conduitsOf p (c.channel.map Channel.producer)) s.conduits := by
  unfold State.chargedConduits
  rw [countP_toList]
  apply total_eq_of_getElem
  intro i hi
  cases h : s.conduits[i].channel <;> simp [indicator, conduitsOf, h]

end Sys2Proof.Machine


/-! ### Descriptors, slots and notices: what each operation leaves -/

namespace Sys2Proof.Machine

section Rules

variable (s : State) (p : Port) (h k : Handle) (n m : ConduitNo)

/-! #### Descriptors -/

theorem State.setSegment_segment (g : Option Segment) :
    (s.setSegment h g).segment k = if k = h then g else s.segment k := by
  by_cases hk : k = h
  · subst hk; simp
  · simp [hk]

theorem State.segment_ext {s t : State} (hp : t.pool.descriptors = s.pool.descriptors) (h : Handle) :
    t.segment h = s.segment h := by
  simp [State.segment, hp]

@[simp] theorem State.withPool_segment (pool : Pool) : ({ s with pool } : State).segment h = pool.descriptors[h] := rfl

@[simp] theorem State.withPool_channel (pool : Pool) : ({ s with pool } : State).channel n = s.channel n := rfl

theorem getElem_set_handle {α : Type} (v : Vector α 256) (x : α) :
    (v.set h x)[k] = if k = h then x else v[k] := by
  simp only [Fin.getElem_fin, Vector.getElem_set, Fin.ext_iff, eq_comm]

theorem State.reclaim_segment (g : Segment) :
    ({ s with pool := s.pool.reclaim h g } : State).segment k = if k = h then none else s.segment k :=
  getElem_set_handle h k s.pool.descriptors none

theorem State.detach_segment :
    ({ s with pool := s.pool.detach n } : State).segment h = (s.segment h).map (Segment.detachFrom n) := by
  simp only [State.withPool_segment, Pool.detach, Fin.getElem_fin, getElem_mapEntries]
  rfl

theorem State.teardown_segment : (s.teardown n).segment h = (s.segment h).map (Segment.detachFrom n) :=
  s.detach_segment h n

theorem Segment.detachFrom_of_ne {g : Segment} {n : ConduitNo} (hg : g.conduit ≠ some n) : g.detachFrom n = g := by
  simp [Segment.detachFrom, hg]

theorem Segment.detachFrom_of_eq {g : Segment} {n : ConduitNo} (hg : g.conduit = some n) :
    g.detachFrom n = { g with conduit := none } := by
  simp [Segment.detachFrom, hg]

@[simp] theorem Segment.detachFrom_stage (g : Segment) : (g.detachFrom n).stage = g.stage := by
  unfold Segment.detachFrom; split <;> rfl

@[simp] theorem Segment.detachFrom_producer (g : Segment) : (g.detachFrom n).producer = g.producer := by
  unfold Segment.detachFrom; split <;> rfl

@[simp] theorem Segment.detachFrom_length (g : Segment) : (g.detachFrom n).length = g.length := by
  unfold Segment.detachFrom; split <;> rfl

@[simp] theorem Segment.detachFrom_payload (g : Segment) : (g.detachFrom n).payload = g.payload := by
  unfold Segment.detachFrom; split <;> rfl

@[simp] theorem Segment.detachFrom_owner (g : Segment) : (g.detachFrom n).owner = g.owner := by
  simp [Segment.owner]

/-- A descriptor that still names a conduit after a teardown named it before, and it is another slot's. -/
theorem Segment.detachFrom_conduit_eq_some {g : Segment} :
    (g.detachFrom n).conduit = some m ↔ g.conduit = some m ∧ m ≠ n := by
  unfold Segment.detachFrom
  split
  · rename_i hg
    simp only [reduceCtorEq, false_iff, not_and, hg, Option.some.injEq]
    intro e
    simp [e]
  · rename_i hg
    refine ⟨fun hm => ⟨hm, ?_⟩, And.left⟩
    rintro rfl
    exact hg hm

/-! #### Slots -/

theorem State.setChannel_channel (ch : Option Channel) :
    (s.setChannel n ch).channel m = if m = n then ch else s.channel m := by
  by_cases hm : m = n
  · subst hm; simp
  · simp [hm]

theorem State.updateChannel_channel (f : Channel → Channel) :
    (s.updateChannel n f).channel m = if m = n then (s.channel n).map f else s.channel m := by
  cases hc : s.channel n with
  | none =>
    rw [s.updateChannel_of_none n hc]
    split
    · rename_i hm; rw [hm, hc]; rfl
    · rfl
  | some ch => rw [s.updateChannel_of_some n hc, State.setChannel_channel]; rfl

@[simp] theorem State.updateChannel_pool (f : Channel → Channel) : (s.updateChannel n f).pool = s.pool := by
  unfold State.updateChannel; split <;> rfl

@[simp] theorem State.updateChannel_segment (f : Channel → Channel) :
    (s.updateChannel n f).segment h = s.segment h := by
  simp [State.segment]

theorem State.teardown_channel : (s.teardown n).channel m = if m = n then none else s.channel m :=
  State.setChannel_channel { s with pool := s.pool.detach n } n m none

@[simp] theorem State.tell_pool (f : Port → List Event) : (s.tell f).pool = s.pool := rfl
@[simp] theorem State.tell_conduits (f : Port → List Event) : (s.tell f).conduits = s.conduits := rfl
@[simp] theorem State.tell_segment (f : Port → List Event) : (s.tell f).segment h = s.segment h := rfl
@[simp] theorem State.tell_channel (f : Port → List Event) : (s.tell f).channel n = s.channel n := rfl
@[simp] theorem State.tell_conduit (f : Port → List Event) : (s.tell f).conduit n = s.conduit n := rfl
@[simp] theorem State.tell_partition (f : Port → List Event) : (s.tell f).partition = s.partition := rfl
@[simp] theorem State.tell_ports (f : Port → List Event) : (s.tell f).ports = s.ports := rfl

@[simp] theorem State.appendEvent_pool (e : Event) : (s.appendEvent p e).pool = s.pool := by
  rw [State.appendEvent_eq_tell]; rfl
@[simp] theorem State.appendEvent_conduits (e : Event) : (s.appendEvent p e).conduits = s.conduits := by
  rw [State.appendEvent_eq_tell]; rfl
@[simp] theorem State.appendEvents_pool (ps : List Port) (e : Event) : (s.appendEvents ps e).pool = s.pool := by
  rw [State.appendEvents_eq_tell]; rfl
@[simp] theorem State.appendEvents_conduits (ps : List Port) (e : Event) :
    (s.appendEvents ps e).conduits = s.conduits := by
  rw [State.appendEvents_eq_tell]; rfl

theorem State.channel_ext {s t : State} (hc : t.conduits = s.conduits) (n : ConduitNo) :
    t.channel n = s.channel n := by
  simp [State.channel, State.conduit, hc]

@[simp] theorem State.appendEvent_channel (e : Event) : (s.appendEvent p e).channel n = s.channel n :=
  State.channel_ext (s.appendEvent_conduits p e) n
@[simp] theorem State.appendEvents_channel (ps : List Port) (e : Event) :
    (s.appendEvents ps e).channel n = s.channel n :=
  State.channel_ext (s.appendEvents_conduits ps e) n
@[simp] theorem State.appendEvent_segment (e : Event) : (s.appendEvent p e).segment h = s.segment h :=
  State.segment_ext (by simp) h
@[simp] theorem State.appendEvents_segment (ps : List Port) (e : Event) :
    (s.appendEvents ps e).segment h = s.segment h :=
  State.segment_ext (by simp) h

@[simp] theorem Channel.mapFlow_producer (f : Flow → Flow) (ch : Channel) : (ch.mapFlow f).producer = ch.producer := rfl
@[simp] theorem Channel.mapFlow_members (f : Flow → Flow) (ch : Channel) : (ch.mapFlow f).members = ch.members := rfl
@[simp] theorem Channel.mapFlow_stage (f : Flow → Flow) (ch : Channel) :
    (ch.mapFlow f).stage = ch.stage.mapFlow f := rfl

@[simp] theorem Stage.flow?_mapFlow (f : Flow → Flow) (st : Stage) : (st.mapFlow f).flow? = st.flow?.map f := by
  cases st <;> rfl

theorem Stage.mapFlow_mapFlow (f g : Flow → Flow) (st : Stage) :
    (st.mapFlow f).mapFlow g = st.mapFlow (fun x => g (f x)) := by
  cases st <;> rfl

theorem Stage.mapFlow_congr {f g : Flow → Flow} {st : Stage} (h : ∀ x, st.flow? = some x → f x = g x) :
    st.mapFlow f = st.mapFlow g := by
  cases st with
  | offered d => rfl
  | opened x => simp [Stage.mapFlow, h x rfl]
  | draining x => simp [Stage.mapFlow, h x rfl]

theorem Channel.mapFlow_congr {f g : Flow → Flow} {ch : Channel} (h : ∀ x, ch.stage.flow? = some x → f x = g x) :
    ch.mapFlow f = ch.mapFlow g := by
  simp only [Channel.mapFlow, Stage.mapFlow_congr h]

theorem Stage.mapFlow_id {f : Flow → Flow} {st : Stage} (h : ∀ x, st.flow? = some x → f x = x) :
    st.mapFlow f = st := by
  cases st with
  | offered d => rfl
  | opened x => simp [Stage.mapFlow, h x rfl]
  | draining x => simp [Stage.mapFlow, h x rfl]

theorem Channel.mapFlow_eq_self {f : Flow → Flow} {ch : Channel} (h : ∀ x, ch.stage.flow? = some x → f x = x) :
    ch.mapFlow f = ch := by
  cases ch with
  | mk producer present cls window size limit members stage => simp [Channel.mapFlow, Stage.mapFlow_id h]

/-! #### Freeing notices -/

/-- The flow fields of a slot, where it has any (R24). -/
def State.flowOf (s : State) (n : ConduitNo) : Option Flow := (s.channel n).bind (fun ch => ch.stage.flow?)

/-- WINDOW_OPEN as the producer hears it of this many freeing notices (R62). -/
def State.reopening (s : State) (n : ConduitNo) (freed : Nat) (q : Port) : List Event :=
  match s.channel n with
  | none => []
  | some ch =>
    match ch.stage.flow? with
    | none => []
    | some f => if q = ch.producer ∧ f.reopens freed = true then [.windowOpen n] else []

/-- A slot after this many freeing notices (R17, R62). -/
def State.noticed (s : State) (n : ConduitNo) (freed : Nat) : State :=
  (s.updateChannel n (Channel.mapFlow (fun f => f.afterFreeing freed))).tell (s.reopening n freed)

@[simp] theorem State.noticed_pool (i : Nat) : (s.noticed n i).pool = s.pool := by simp [State.noticed]

@[simp] theorem State.noticed_segment (i : Nat) : (s.noticed n i).segment h = s.segment h := by simp [State.noticed]

theorem State.noticed_channel (i : Nat) : (s.noticed n i).channel m =
    if m = n then (s.channel n).map (Channel.mapFlow (fun f => f.afterFreeing i)) else s.channel m :=
  s.updateChannel_channel n m _

theorem Flow.afterFreeing_zero (f : Flow) : f.afterFreeing 0 = f := by simp [Flow.afterFreeing, Flow.reopens]

/-- Notices add up: a latch that one notice clears is cleared for the later ones, and it is cleared as soon as
outstanding is below the window. -/
theorem Flow.afterFreeing_add (f : Flow) (i j : Nat) : (f.afterFreeing i).afterFreeing j = f.afterFreeing (i + j) := by
  have hsub : f.outstanding - i - j = f.outstanding - (i + j) := by omega
  by_cases hl : f.windowLatch = true
  · by_cases hi : 1 ≤ i ∧ f.outstanding - i < f.window
    · have : f.outstanding - (i + j) < f.window := by omega
      have : 1 ≤ i + j := by omega
      simp [Flow.afterFreeing, Flow.reopens, *]
    · by_cases h1 : 1 ≤ i
      · have hno : ¬ f.outstanding - i < f.window := fun h => hi ⟨h1, h⟩
        by_cases h2 : 1 ≤ j
        · have hij : 1 ≤ i + j := by omega
          simp [Flow.afterFreeing, Flow.reopens, hl, hno, hsub, h2, hij]
        · have : j = 0 := by omega
          subst this
          simp [Flow.afterFreeing, Flow.reopens, *]
      · have : i = 0 := by omega
        subst this
        simp [Flow.afterFreeing, Flow.reopens]
  · simp [Flow.afterFreeing, Flow.reopens, hl, hsub]

/-- The records of two batches of notices are those of both in one. -/
theorem Flow.reopens_add (f : Flow) (i j : Nat) :
    f.reopens (i + j) = (f.reopens i || (f.afterFreeing i).reopens j) ∧
      ¬ (f.reopens i = true ∧ (f.afterFreeing i).reopens j = true) := by
  have hsub : f.outstanding - i - j = f.outstanding - (i + j) := by omega
  by_cases hl : f.windowLatch = true
  · by_cases hi : 1 ≤ i ∧ f.outstanding - i < f.window
    · have : f.outstanding - (i + j) < f.window := by omega
      have : 1 ≤ i + j := by omega
      simp [Flow.afterFreeing, Flow.reopens, *]
    · by_cases h1 : 1 ≤ i
      · have hno : ¬ f.outstanding - i < f.window := fun h => hi ⟨h1, h⟩
        by_cases h2 : 1 ≤ j
        · have hij : decide (1 ≤ i + j) = true := by simp; omega
          have hj : decide (1 ≤ j) = true := by simp [h2]
          simp only [Flow.afterFreeing, Flow.reopens, hij, hj, hl, hno, hsub, decide_false, Bool.and_false]
          simp
        · have : j = 0 := by omega
          subst this
          simp [Flow.afterFreeing, Flow.reopens, *]
      · have : i = 0 := by omega
        subst this
        simp [Flow.afterFreeing, Flow.reopens, hl]
  · simp [Flow.afterFreeing, Flow.reopens, hl]

theorem State.setChannel_same {ch : Channel} (hc : s.channel n = some ch) : s.setChannel n (some ch) = s := by
  have : ({ s.conduit n with channel := some ch } : Conduit) = s.conduits[n] := by
    simp only [State.channel] at hc
    rw [← hc]
    rfl
  simp only [State.setChannel, this]
  simp

/-- A slot without flow fields takes no notice. -/
theorem State.noticed_of_flowless (hf : ∀ ch, s.channel n = some ch → ch.stage.flow? = none) (i : Nat) :
    s.noticed n i = s := by
  cases hc : s.channel n with
  | none =>
    have hr : s.reopening n i = fun _ => [] := by funext q; simp [State.reopening, hc]
    rw [State.noticed, s.updateChannel_of_none n hc, hr, State.tell_nil]
  | some ch =>
    have hfl := hf ch hc
    have hr : s.reopening n i = fun _ => [] := by funext q; simp [State.reopening, hc, hfl]
    have hm : ch.mapFlow (fun f => f.afterFreeing i) = ch :=
      Channel.mapFlow_eq_self (fun x hx => by rw [hfl] at hx; cases hx)
    rw [State.noticed, s.updateChannel_of_some n hc, hm, s.setChannel_same n hc, hr, State.tell_nil]

/-- A slot with flow fields takes them. -/
theorem State.noticed_of_flow {ch : Channel} {f : Flow} (hc : s.channel n = some ch) (hf : ch.stage.flow? = some f)
    (i : Nat) : s.noticed n i = (s.setChannel n (some (ch.mapFlow (fun _ => f.afterFreeing i)))).tell
      (fun q => if q = ch.producer ∧ f.reopens i = true then [.windowOpen n] else []) := by
  have hm : ch.mapFlow (fun f => f.afterFreeing i) = ch.mapFlow (fun _ => f.afterFreeing i) :=
    Channel.mapFlow_congr (fun x hx => by rw [hf] at hx; cases hx; rfl)
  have hr : s.reopening n i = fun q => if q = ch.producer ∧ f.reopens i = true then [.windowOpen n] else [] := by
    funext q; simp [State.reopening, hc, hf]
  rw [State.noticed, s.updateChannel_of_some n hc, hm, hr]

theorem State.noticed_zero : s.noticed n 0 = s := by
  cases hfl : s.flowOf n with
  | none =>
    exact s.noticed_of_flowless n (fun ch hc => by simpa [State.flowOf, hc] using hfl) 0
  | some f =>
    obtain ⟨ch, hc, hf⟩ := Option.bind_eq_some_iff.1 hfl
    have hm : ch.mapFlow (fun _ => f) = ch :=
      Channel.mapFlow_eq_self (fun x hx => by rw [hf] at hx; cases hx; rfl)
    rw [s.noticed_of_flow n hc hf, Flow.afterFreeing_zero, hm, s.setChannel_same n hc]
    simp [Flow.reopens, State.tell_nil]

/-- Records told ahead of a replaced slot are told all the same. -/
theorem State.tell_setChannel (f : Port → List Event) (ch : Option Channel) :
    (s.tell f).setChannel n ch = (s.setChannel n ch).tell f := rfl

theorem State.noticed_noticed (i j : Nat) : (s.noticed n i).noticed n j = s.noticed n (i + j) := by
  cases hfl : s.flowOf n with
  | none =>
    have hno : ∀ ch, s.channel n = some ch → ch.stage.flow? = none := fun ch hc => by
      simpa [State.flowOf, hc] using hfl
    simp only [s.noticed_of_flowless n hno]
  | some f =>
    obtain ⟨ch, hc, hf⟩ := Option.bind_eq_some_iff.1 hfl
    have hci : (s.noticed n i).channel n = some (ch.mapFlow (fun _ => f.afterFreeing i)) := by
      rw [s.noticed_of_flow n hc hf]; simp
    have hfi : (ch.mapFlow (fun _ => f.afterFreeing i)).stage.flow? = some (f.afterFreeing i) := by simp [hf]
    rw [State.noticed_of_flow _ n hci hfi, s.noticed_of_flow n hc hf, s.noticed_of_flow n hc hf,
      State.tell_setChannel, State.setChannel_setChannel, State.tell_tell]
    obtain ⟨hadd, hnot⟩ := f.reopens_add i j
    congr 1
    · simp only [Channel.mapFlow, Stage.mapFlow_mapFlow, Flow.afterFreeing_add]
    · funext q
      by_cases hq : q = ch.producer
      · cases h1 : f.reopens i <;> cases h2 : (f.afterFreeing i).reopens j <;>
          simp [hq, h1, h2, hadd] at hnot ⊢
      · simp [hq]

/-- One freeing notice (R17, R62). -/
theorem State.freeingNotice_eq : s.freeingNotice n = s.noticed n 1 := by
  unfold State.freeingNotice
  split
  · rename_i hc
    exact (s.noticed_of_flowless n (by simp [hc]) 1).symm
  · rename_i ch hc
    split
    · rename_i hf
      exact (s.noticed_of_flowless n (by simp [hc, hf]) 1).symm
    · rename_i f hf
      rw [s.noticed_of_flow n hc hf]
      by_cases hl : f.windowLatch = true ∧ f.outstanding - 1 < f.window
      · have hr : f.reopens 1 = true := by simp [Flow.reopens, hl]
        have hm : ch.mapFlow (fun f => { f with outstanding := f.outstanding - 1, windowLatch := false }) =
            ch.mapFlow (fun _ => f.afterFreeing 1) :=
          Channel.mapFlow_congr (fun x hx => by
            rw [hf] at hx
            cases hx
            simp [Flow.afterFreeing, hr])
        rw [if_pos hl, s.updateChannel_of_some n hc, hm, State.appendEvent_eq_tell]
        simp [hr]
      · have hr : f.reopens 1 = false := by
          cases hw : f.windowLatch <;> simp [hw] at hl <;> simp [Flow.reopens, hw, hl]
        have hm : ch.mapFlow (fun f => { f with outstanding := f.outstanding - 1 }) =
            ch.mapFlow (fun _ => f.afterFreeing 1) :=
          Channel.mapFlow_congr (fun x hx => by
            rw [hf] at hx
            cases hx
            simp [Flow.afterFreeing, hr])
        rw [if_neg hl, s.updateChannel_of_some n hc, hm]
        simp [hr, State.tell_nil]

/-- The freeing notice to the conduit a freed descriptor names, if it names one (R16). -/
def State.notify? (s : State) : Option ConduitNo → State
  | none => s
  | some n => s.noticed n 1

@[simp] theorem State.notify?_none : s.notify? none = s := rfl
@[simp] theorem State.notify?_some : s.notify? (some n) = s.noticed n 1 := rfl

@[simp] theorem State.notify?_pool (o : Option ConduitNo) : (s.notify? o).pool = s.pool := by
  cases o <;> simp [State.notify?]

@[simp] theorem State.notify?_segment (o : Option ConduitNo) : (s.notify? o).segment h = s.segment h := by
  cases o <;> simp [State.notify?]

/-- A slot after a notice: its flow fields have counted it where it is the one told. -/
theorem State.notify?_channel (o : Option ConduitNo) : (s.notify? o).channel n =
    (s.channel n).map (Channel.mapFlow (fun f => if o = some n then f.afterFreeing 1 else f)) := by
  have hid : ∀ x : Option Channel, x.map (Channel.mapFlow (fun f => f)) = x := fun x => by
    cases x with
    | none => rfl
    | some ch => rw [Option.map_some, Channel.mapFlow_eq_self (fun _ _ => rfl)]
  cases o with
  | none => simp [hid]
  | some m =>
    rw [State.notify?_some, State.noticed_channel]
    by_cases hm : n = m
    · subst hm; simp
    · have : m ≠ n := fun e => hm e.symm
      simp [hm, this, hid]

theorem State.notify?_surroundings (o : Option ConduitNo) : SameSurroundings s (s.notify? o) := by
  cases o with
  | none => exact .refl s
  | some n => rw [State.notify?_some, ← State.freeingNotice_eq]; exact s.freeingNotice_surroundings n

/-! #### Freeings and claims -/

/-- What a claim leaves of a descriptor: FREE where a LIVE one loses its last reference (R14). -/
def Segment.claimed (c : Claim) (g : Segment) : Option Segment :=
  match g.stage with
  | .filling => some g
  | .live q r => if (c.change r).total = 0 then none else some { g with stage := .live q (c.change r) }

/-- The pool after a claim (R13, R14, R16). -/
def Pool.claimed (pool : Pool) (c : Claim) (h : Handle) : Pool :=
  match pool.descriptors[h] with
  | none => pool
  | some g =>
    match g.claimed c with
    | none => pool.reclaim h g
    | some g' => { pool with descriptors := pool.descriptors.set h (some g') }

/-- The conduit a claim sends a freeing notice to (R16). -/
def Segment.noticeOf (c : Claim) (g : Segment) : Option ConduitNo := if g.claimed c = none then g.conduit else none

theorem State.freeDescriptor_of_some {g : Segment} (hg : s.segment h = some g) :
    s.freeDescriptor h = ({ s with pool := s.pool.reclaim h g } : State).notify? g.conduit := by
  unfold State.freeDescriptor
  simp only [hg]
  cases g.conduit with
  | none => rfl
  | some n => exact State.freeingNotice_eq _ n

theorem State.freeDescriptor_of_none (hg : s.segment h = none) : s.freeDescriptor h = s := by
  unfold State.freeDescriptor
  simp [hg]

theorem Pool.reclaim_set (pool : Pool) (g : Segment) (x : Option Segment) :
    ({ pool with descriptors := pool.descriptors.set h x } : Pool).reclaim h g = pool.reclaim h g := by
  simp [Pool.reclaim]

/-- A claim is its change of the pool and the notice of the freeing it causes. -/
theorem State.claim_eq (c : Claim) : s.claim c h =
    ({ s with pool := s.pool.claimed c h } : State).notify? ((s.segment h).bind (Segment.noticeOf c)) := by
  unfold State.claim Pool.claimed
  cases hg : s.segment h with
  | none =>
    have : s.pool.descriptors[h] = none := hg
    simp [this]
  | some g =>
    have hd : s.pool.descriptors[h] = some g := hg
    simp only [hd, Option.bind_some]
    cases hst : g.stage with
    | filling =>
      have : g.claimed c = some g := by simp [Segment.claimed, hst]
      have hself : s.pool.descriptors.set h (some g) = s.pool.descriptors := by
        rw [← hd]; simp
      simp [Segment.noticeOf, this, hself]
    | live q r =>
      by_cases ht : (c.change r).total = 0
      · have hcl : g.claimed c = none := by simp [Segment.claimed, hst, ht]
        simp only [ht, if_true]
        rw [State.freeDescriptor_of_some _ h (State.setSegment_segment_self _ _ _)]
        simp only [hcl, Segment.noticeOf, if_true]
        congr 1
        simp only [State.setSegment, Pool.reclaim_set]
        rfl
      · have hcl : g.claimed c = some { g with stage := .live q (c.change r) } := by
          simp [Segment.claimed, hst, ht]
        simp [ht, hcl, Segment.noticeOf, State.setSegment]

theorem Pool.claimed_of_freed {pool : Pool} {c : Claim} {g : Segment} (hg : pool.descriptors[h] = some g)
    (hc : g.claimed c = none) : pool.claimed c h = pool.reclaim h g := by
  simp [Pool.claimed, hg, hc]

theorem Pool.claimed_of_kept {pool : Pool} {c : Claim} {g g' : Segment} (hg : pool.descriptors[h] = some g)
    (hc : g.claimed c = some g') :
    pool.claimed c h = { pool with descriptors := pool.descriptors.set h (some g') } := by
  simp [Pool.claimed, hg, hc]

theorem Pool.claimed_of_none {pool : Pool} {c : Claim} (hg : pool.descriptors[h] = none) :
    pool.claimed c h = pool := by
  simp [Pool.claimed, hg]

theorem State.claim_segment (c : Claim) : (s.claim c h).segment k =
    if k = h then (s.segment h).bind (Segment.claimed c) else s.segment k := by
  rw [State.claim_eq, State.notify?_segment, State.withPool_segment]
  cases hg : s.segment h with
  | none =>
    rw [Pool.claimed_of_none h hg]
    split
    · rename_i hk; subst hk; exact hg
    · rfl
  | some g =>
    rw [Option.bind_some]
    cases hcl : g.claimed c with
    | none => rw [Pool.claimed_of_freed h hg hcl]; exact s.reclaim_segment h k g
    | some g' => rw [Pool.claimed_of_kept h hg hcl]; exact getElem_set_handle h k _ _

/-- A slot after a claim: its flow fields have counted the freeing of a descriptor that named it. -/
theorem State.claim_channel (c : Claim) : (s.claim c h).channel n =
    (s.channel n).map (Channel.mapFlow (fun f =>
      if (s.segment h).bind (Segment.noticeOf c) = some n then f.afterFreeing 1 else f)) := by
  rw [State.claim_eq, State.notify?_channel]
  rfl

theorem State.freeDescriptor_segment : (s.freeDescriptor h).segment k = if k = h then none else s.segment k := by
  cases hg : s.segment h with
  | none =>
    rw [s.freeDescriptor_of_none h hg]
    split
    · rename_i hk; rw [hk, hg]
    · rfl
  | some g => rw [s.freeDescriptor_of_some h hg, State.notify?_segment, State.reclaim_segment]

theorem State.freeDescriptor_channel : (s.freeDescriptor h).channel n =
    (s.channel n).map (Channel.mapFlow (fun f =>
      if (s.segment h).bind Segment.conduit = some n then f.afterFreeing 1 else f)) := by
  cases hg : s.segment h with
  | none =>
    rw [s.freeDescriptor_of_none h hg]
    cases s.channel n with
    | none => rfl
    | some ch => simp [Channel.mapFlow_eq_self]
  | some g =>
    rw [s.freeDescriptor_of_some h hg, State.notify?_channel]
    rfl

end Rules

end Sys2Proof.Machine


/-! ### What a step can do to the pool, the slots and the active quotas

Every row is a run of a few elementary acts, but for three deeds that put a descriptor to use: the POST that begins a
fill, the completion that delivers one, and the TAKE that moves one to the holds. The laws are kept by each act and by
each deed. -/

namespace Sys2Proof.Machine

/-- The pool, the slots and the active quotas stay as they are. -/
structure SameStore (s t : State) : Prop where
  pool : t.pool = s.pool
  conduits : t.conduits = s.conduits
  quotas : t.partition.quotas = s.partition.quotas

/-- How the stage of a slot in use can move while it stays in use (R35, R39, R45, R61). -/
inductive StageMove : Stage → Stage → Prop where
  | same (st : Stage) : StageMove st st
  | drain {st : Stage} {f : Flow} (hf : st.flow? = some f) : StageMove st (.draining { f with windowLatch := false })
  | opening (d : Tick) {f : Flow} (hout : f.outstanding = 0) (hlatch : f.windowLatch = false) :
      StageMove (.offered d) (.opened f)
  | latch {f : Flow} (hfull : f.window ≤ f.outstanding) :
      StageMove (.opened f) (.opened { f with windowLatch := true })

/-- No member queues or holds what none did before. -/
def MembersShrink (l l' : List Endpoint) : Prop :=
  ∀ e' ∈ l', ∃ e ∈ l, List.Sublist e'.queue e.queue ∧ List.Sublist e'.holds e.holds

/-- One elementary act on the pool, the slots and the active quotas. -/
inductive Act : State → State → Prop where
  | store {s t : State} (h : SameStore s t) : Act s t
  | claim (s : State) (c : Claim) (h : Handle) : Act s (s.claim c h)
  | free (s : State) (h : Handle) : Act s (s.freeDescriptor h)
  | teardown (s : State) (n : ConduitNo) : Act s (s.teardown n)
  | use {s : State} {n : ConduitNo} {ch ch' : Channel} (hc : s.channel n = some ch)
      (hp : ch'.producer = ch.producer) (hs : StageMove ch.stage ch'.stage)
      (hm : MembersShrink ch.members ch'.members) : Act s (s.setChannel n (some ch'))
  | offer {s : State} {n : ConduitNo} {ch : Channel} {d : Tick} (generation : Byte) (hc : s.channel n = none)
      (hs : ch.stage = .offered d) (hq : s.conduitQuotaAllows ch.producer = true)
      (hm : ∀ e ∈ ch.members, e.queue = [] ∧ e.holds = []) :
      Act s { s with conduits := s.conduits.set n { generation, channel := some ch } }
  | adopt {s t : State} (hp : t.pool = s.pool) (hc : t.conduits = s.conduits)
      (hu : ∀ p, s.usageWithin t.partition.quotas p = true) : Act s t
  | powerOn {s t : State} (hp : t.pool = Pool.initial) (hc : t.conduits = initialConduits)
      (hq : t.partition.quotas = Partition.initial.quotas) : Act s t

/-- A run of elementary acts. -/
abbrev Acts : State → State → Prop := Relation.ReflTransGen Act

theorem Act.acts {s t : State} (h : Act s t) : Acts s t := Relation.ReflTransGen.single h

theorem Acts.refl (s : State) : Acts s s := Relation.ReflTransGen.refl

theorem SameStore.refl (s : State) : SameStore s s := ⟨rfl, rfl, rfl⟩

theorem SameStore.trans {s t u : State} (a : SameStore s t) (b : SameStore t u) : SameStore s u :=
  ⟨b.pool.trans a.pool, b.conduits.trans a.conduits, b.quotas.trans a.quotas⟩

theorem MembersShrink.refl (l : List Endpoint) : MembersShrink l l := fun e he => ⟨e, he, .refl _, .refl _⟩

theorem MembersShrink.filter (l : List Endpoint) (c : Endpoint → Bool) : MembersShrink l (l.filter c) :=
  fun e he => ⟨e, List.mem_of_mem_filter he, .refl _, .refl _⟩

/-- One member's endpoint changed to one that queues and holds no more. -/
theorem MembersShrink.update {ch : Channel} {p : Port} {f : Endpoint → Endpoint}
    (hf : ∀ e, List.Sublist (f e).queue e.queue ∧ List.Sublist (f e).holds e.holds) :
    MembersShrink ch.members (ch.updateEndpoint p f).members := by
  intro e' he'
  obtain ⟨e, he, rfl⟩ := List.mem_map.1 he'
  refine ⟨e, he, ?_⟩
  split
  · exact hf e
  · exact ⟨.refl _, .refl _⟩

theorem SameStore.acts {s t : State} (h : SameStore s t) : Acts s t := (Act.store h).acts

/-- What every act keeps, a run of acts keeps. -/
theorem Acts.keeps {P : State → Prop} (hP : ∀ s t, P s → Act s t → P t) {s t : State} (h : Acts s t) (hs : P s) :
    P t := by
  induction h with
  | refl => exact hs
  | tail _ ha ih => exact hP _ _ ih ha

/-! #### Operations that leave the store alone -/

section Store

variable (s : State) (p : Port)

theorem State.setPort_store (c : PortController) : SameStore s (s.setPort p c) := ⟨rfl, rfl, rfl⟩

theorem State.tell_store (f : Port → List Event) : SameStore s (s.tell f) := ⟨rfl, rfl, rfl⟩

theorem State.appendEvent_store (e : Event) : SameStore s (s.appendEvent p e) := by
  rw [State.appendEvent_eq_tell]; exact s.tell_store _

theorem State.appendEvents_store (ps : List Port) (e : Event) : SameStore s (s.appendEvents ps e) := by
  rw [State.appendEvents_eq_tell]; exact s.tell_store _

/-- Records told behind what leaves the store alone. -/
theorem SameStore.appendEvents {s t : State} (h : SameStore s t) (ps : List Port) (e : Event) :
    SameStore s (t.appendEvents ps e) := h.trans (t.appendEvents_store ps e)

theorem SameStore.appendEvent {s t : State} (h : SameStore s t) (p : Port) (e : Event) :
    SameStore s (t.appendEvent p e) := h.trans (t.appendEvent_store p e)

theorem State.writeOutcome_store (c : Command) (a : Answer) (named : Option ConduitNo) :
    SameStore s (s.writeOutcome p c a named) := by
  unfold State.writeOutcome
  split
  · exact .refl s
  · exact s.setPort_store p _

theorem State.accept_store (c : Command) (named : Option ConduitNo) (t : Transaction) (a : Answer) :
    SameStore a.state (State.accept p c named t a) :=
  (a.state.writeOutcome_store p c a named).trans (State.setPort_store _ p _)

theorem State.resolveProposal_store (pr : Proposal) (r : ProposalResult) : SameStore s (s.resolveProposal pr r) :=
  SameStore.appendEvents (s := s) (t := { s with partition := { s.partition with proposal := none } })
    ⟨rfl, rfl, rfl⟩ _ _

theorem State.abandonProposal_store : SameStore s (s.abandonProposal p) := by
  unfold State.abandonProposal
  split
  · exact .refl s
  · exact s.resolveProposal_store _ _

theorem State.lapseProposal_store : SameStore s s.lapseProposal := by
  unfold State.lapseProposal
  split
  · exact .refl s
  · split
    · exact s.resolveProposal_store _ _
    · exact .refl s

theorem State.attach_store : SameStore s (s.attach p) := by
  have joined : SameStore s { s.setPort p { s.port p with state := .attached, rotation := 23 } with
      events := s.events.set p EventQueue.initial } := ⟨rfl, rfl, rfl⟩
  exact (joined.trans (State.abandonProposal_store _ p)).appendEvents _ _

theorem State.departAttention_store : SameStore s (s.departAttention p) := by
  have refused : ∀ (l : List AttentionEntry) (s : State),
      SameStore s (l.foldl (fun s e => s.appendEvent e.source (.attnRefused p e.vector)) s) := by
    intro l
    induction l with
    | nil => exact SameStore.refl
    | cons e l ih => exact fun s => (s.appendEvent_store _ _).trans (ih _)
  exact (refused _ s).trans ⟨rfl, rfl, rfl⟩

theorem State.clearEvents_store : SameStore s (s.clearEvents p) := ⟨rfl, rfl, rfl⟩

theorem State.refuseCode_store (code : Byte) :
    SameStore s (s.refuseCode p code) ∨ s.refuseCode p code = s.receivePayload p [code] := by
  unfold State.refuseCode
  split
  · split
    · exact .inl (.refl s)
    · exact .inl (.refl s)
    · exact .inr rfl
    · exact .inl (s.setPort_store p _)
  · exact .inl (.refl s)

theorem State.refuseTruncated_store (code : Byte) (args : List Byte) :
    SameStore s (s.refuseTruncated p code args) := by
  unfold State.refuseTruncated
  split
  · split
    · exact s.setPort_store p _
    · exact .refl s
  · exact .refl s

end Store

/-! #### Operations on descriptors and slots -/

section Runs

variable (s : State) (p : Port) (h : Handle) (n : ConduitNo)

theorem State.claims_acts (c : Claim) (hs : List Handle) : Acts s (s.claims c hs) := by
  induction hs generalizing s with
  | nil => exact .refl s
  | cons h hs ih => exact (Act.claim s c h).acts.trans (ih _)

theorem State.updateEndpoint_acts {f : Endpoint → Endpoint}
    (hf : ∀ e, List.Sublist (f e).queue e.queue ∧ List.Sublist (f e).holds e.holds) :
    Acts s (s.updateEndpoint n p f) := by
  unfold State.updateEndpoint
  cases hc : s.channel n with
  | none => rw [s.updateChannel_of_none n hc]
  | some ch =>
    rw [s.updateChannel_of_some n hc]
    exact (Act.use (ch' := ch.updateEndpoint p f) hc rfl (.same _) (.update hf)).acts

theorem State.dropHold_acts (d : Hold) : Acts s (s.updateEndpoint n p (fun e => e.dropHold d)) :=
  s.updateEndpoint_acts p n (fun _ => ⟨.refl _, List.erase_sublist⟩)

theorem State.failOffer_acts (r : OfferResult) (ps : List Port) : Acts s (s.failOffer n r ps) :=
  (s.appendEvents_store ps _).acts.trans (Act.teardown _ n).acts

theorem State.endConduit_acts (r : EndReason) : Acts s (s.endConduit n r) := by
  unfold State.endConduit
  split
  · exact .refl s
  · exact (s.appendEvents_store _ _).acts.trans (Act.teardown _ n).acts

theorem State.drainCheck_acts : Acts s (s.drainCheck n) := by
  unfold State.drainCheck
  split
  · exact .refl s
  · split
    · split
      · exact s.endConduit_acts n _
      · exact .refl s
    · exact .refl s

theorem State.removeMember_acts (r : GoneReason) : Acts s (s.removeMember n p r) := by
  unfold State.removeMember
  split
  · exact .refl s
  · rename_i ch hc
    split
    · exact .refl s
    · rename_i e _
      have dropped := (((Act.use hc (ch' := { ch with members := ch.members.filter (fun e => e.port != p) }) rfl
          (.same _) (.filter _ _)).acts.trans
        (State.appendEvents_store _ (if ch.producerPresent then [ch.producer] else []) (.consumerGone n p r)).acts).trans
        (State.claims_acts _ .removeQueued e.queue)).trans
        (State.claims_acts _ .removeHeld (e.holds.map (fun d => d.handle)))
      by_cases hl : ch.members.all (fun e => e.port == p) = true
      · simp only [hl, if_true]
        exact dropped.trans (State.endConduit_acts _ _ _)
      · simp only [hl]
        exact dropped.trans (State.drainCheck_acts _ _)

theorem State.flushMember_acts (e : Endpoint) : Acts s (s.flushMember n e) := by
  have emptied := (s.updateEndpoint_acts e.port n (f := fun e => { e with queue := [] })
    (fun _ => ⟨List.nil_sublist _, .refl _⟩)).trans
    (State.claims_acts _ .flush e.queue)
  unfold State.flushMember
  by_cases he : e.queue.isEmpty = true
  · simpa [he] using emptied
  · simp only [he]
    exact emptied.trans (State.appendEvent_store _ _ _).acts

theorem State.lapseHold_acts (q : Half) : Acts s (s.lapseHold n p q) := by
  unfold State.lapseHold
  split
  · exact .refl s
  · rename_i d _
    exact (((s.dropHold_acts p n d).trans (Act.claim _ .holdLapse d.handle).acts).trans
      (State.updateEndpoint_acts _ p n (f := fun e => { e with lapsed := appendLapsed e.lapsed q })
        (fun _ => ⟨.refl _, .refl _⟩))).trans
      ((State.appendEvent_store _ _ _).acts.trans (State.drainCheck_acts _ n))

theorem State.lapseOffer_acts : Acts s (s.lapseOffer n) := by
  unfold State.lapseOffer
  split
  · exact .refl s
  · split
    · split
      · exact s.failOffer_acts n _ _
      · exact .refl s
    · exact .refl s
    · exact .refl s

/-- An OPEN or DRAINING conduit that drains. -/
theorem Channel.drain_stage {ch : Channel} {f : Flow} (hf : ch.stage.flow? = some f) :
    ch.drain.stage = .draining { f with windowLatch := false } := by
  cases hs : ch.stage with
  | offered d => rw [hs] at hf; cases hf
  | opened x => rw [hs] at hf; cases hf; simp [Channel.drain, hs]
  | draining x => rw [hs] at hf; cases hf; simp [Channel.drain, hs]

theorem Channel.drain_producer (ch : Channel) : ch.drain.producer = ch.producer := by
  unfold Channel.drain; split <;> rfl

theorem Channel.drain_members (ch : Channel) : ch.drain.members = ch.members := by
  unfold Channel.drain; split <;> rfl

theorem State.departConduit_acts : Acts s (s.departConduit p n) := by
  unfold State.departConduit
  split
  · exact .refl s
  · rename_i ch hc
    have drains : ∀ f, ch.stage.flow? = some f →
        Acts s (((s.setChannel n (some { ch.drain with producerPresent := false })).appendEvents ch.memberPorts
          (.producerGone n)).drainCheck n) := fun f hf =>
      (Act.use hc (ch' := { ch.drain with producerPresent := false }) ch.drain_producer
        (by rw [ch.drain_stage hf]; exact .drain hf) (by rw [ch.drain_members]; exact .refl _)).acts.trans
        ((State.appendEvents_store _ _ _).acts.trans (State.drainCheck_acts _ n))
    split
    · split
      · exact s.failOffer_acts n _ _
      · rename_i f hf; exact drains f (by rw [hf]; rfl)
      · rename_i f hf; exact drains f (by rw [hf]; rfl)
    · split
      · exact .refl s
      · split
        · exact s.failOffer_acts n _ _
        · exact s.removeMember_acts p n _
        · exact s.removeMember_acts p n _

theorem State.foldl_acts {α : Type} {f : State → α → State} (hf : ∀ s a, Acts s (f s a)) (l : List α) :
    Acts s (l.foldl f s) := by
  induction l generalizing s with
  | nil => exact .refl s
  | cons a l ih => exact (hf s a).trans (ih _)

theorem State.departConduits_acts : Acts s (s.departConduits p) := by
  unfold State.departConduits
  exact State.foldl_acts s (fun s n => s.departConduit_acts p n) _

theorem State.depart_acts (cause : DepartureCause) (left : PortState) : Acts s (s.depart p cause left) := by
  have gone := s.setPort_store p { s.port p with state := left, outcome := OutcomeRecord.initial, rotation := 23 }
  have slots := gone.acts.trans (State.departConduits_acts _ p)
  have attention := slots.trans (State.departAttention_store _ p).acts
  have proposal := attention.trans (State.abandonProposal_store _ p).acts
  exact proposal.trans ((State.clearEvents_store _ p).appendEvents _ _).acts

theorem State.recordAccept_acts {ch : Channel} {d : Tick} (hc : s.channel n = some ch) (hs : ch.stage = .offered d)
    (window size : Nat) : Acts s (s.recordAccept n ch p window size) := by
  have answered : MembersShrink ch.members
      (ch.updateEndpoint p (fun e => { e with answer := .accepted window size })).members :=
    .update (fun _ => ⟨.refl _, .refl _⟩)
  unfold State.recordAccept
  simp only
  split
  · exact (Act.use (ch' := ch.updateEndpoint p (fun e => { e with answer := .accepted window size })) hc rfl (.same _)
      answered).acts
  · exact (Act.use hc (ch' := { ch.updateEndpoint p _ with stage := .opened _ }) rfl
      (hs ▸ .opening d (f := Channel.openingFlow _) rfl rfl) answered).acts.trans (State.appendEvents_store _ _ _).acts

theorem State.makeOffer_acts (members : List Port) (cls : ConduitClass) (window size limit : Nat)
    (hc : s.channel n = none) (hq : s.conduitQuotaAllows p = true) :
    Acts s (s.makeOffer n p members cls window size limit) := by
  unfold State.makeOffer
  have empty : ∀ e ∈ members.map Endpoint.initial, e.queue = [] ∧ e.holds = [] := by
    intro e he
    obtain ⟨m, -, rfl⟩ := List.mem_map.1 he
    exact ⟨rfl, rfl⟩
  exact (Act.offer _ hc rfl hq empty).acts.trans (State.appendEvents_store _ _ _).acts

theorem State.adoptProposal_acts (pr : Proposal) : Acts s (s.adoptProposal pr) := by
  unfold State.adoptProposal
  split
  · exact (s.resolveProposal_store _ _).acts
  · rename_i hu
    have hall : ∀ p, s.usageWithin pr.quotas p = true := by
      simpa using hu
    have adopted : Act s { s with partition := { s.partition with
        quotas := pr.quotas
        generation := s.partition.generation + 1 } } := Act.adopt rfl rfl hall
    exact adopted.acts.trans (State.resolveProposal_store _ _ _).acts

theorem State.makeProposal_acts (q : PerPort Quota) : Acts s (s.makeProposal p q) := by
  have made : ∀ (partition : Partition) (ps : List Port) (e : Event), partition.quotas = s.partition.quotas →
      Acts s (({ s with partition } : State).appendEvents ps e) := fun partition ps e hq =>
    (SameStore.appendEvents (s := s) (t := { s with partition }) ⟨rfl, rfl, hq⟩ ps e).acts
  unfold State.makeProposal
  simp only
  split
  · refine made _ _ _ ?_
    rfl
  · refine (made _ _ _ ?_).trans (State.adoptProposal_acts _ _)
    rfl

theorem State.endTransfer_acts : Acts s (s.endTransfer p) := by
  unfold State.endTransfer
  split
  · exact .refl s
  · exact (Act.claim s .transferEnd _).acts.trans (State.setPort_store _ p _).acts

theorem State.abort_acts : Acts s (s.abort p) := by
  unfold State.abort
  split
  · exact (Act.free s _).acts.trans (State.setPort_store _ p _).acts
  · exact (s.endTransfer_acts p).trans (State.setPort_store _ p _).acts

/-! #### Time -/

theorem State.takeExpiry_acts (e : Expiry) : Acts s (s.takeExpiry e) := by
  cases e with
  | offer n => exact s.lapseOffer_acts n
  | proposal => exact s.lapseProposal_store.acts
  | hold n p q => exact s.lapseHold_acts p n q

/-- Whatever every expiry and every free choice keeps, taking the due ones keeps. -/
theorem State.takeDue_keeps {P : State → Prop} (he : ∀ s e, P s → P (s.takeExpiry e))
    (hc : ∀ (s : State) (k : Nat), P s → P { s with choices := k }) (rows : List Expiry) (k : Nat) (hs : P s) :
    P (State.takeDue rows k s) := by
  induction k generalizing s with
  | zero => exact hs
  | succ k ih =>
    unfold State.takeDue
    split
    · exact hs
    · exact ih _ (he _ _ hs)
    · exact ih _ (he _ _ (hc _ _ hs))

/-- Whatever the expiries, the free choices and the counting of time keep, an advance keeps. -/
theorem State.advance_keeps {P : State → Prop} (he : ∀ s e, P s → P (s.takeExpiry e))
    (hc : ∀ (s : State) (k : Nat), P s → P { s with choices := k })
    (ht : ∀ (s : State), P s → P s.countAdvance) (hs : P s) : P s.advance := by
  unfold State.advance
  split
  · exact ht s hs
  · exact ht s hs
  · exact State.takeDue_keeps _ he hc _ _ (ht _ (State.takeDue_keeps _ he hc _ _ hs))

theorem State.referencePeriod_keeps {P : State → Prop} (he : ∀ s e, P s → P (s.takeExpiry e))
    (hc : ∀ (s : State) (k : Nat), P s → P { s with choices := k })
    (ht : ∀ (s : State), P s → P s.countAdvance)
    (hd : ∀ (s : State) (k : Nat), P s → P { s with time := { s.time with divider := k } }) (hs : P s) :
    P s.referencePeriod := by
  have taken : P s.expireDue := State.takeDue_keeps _ he hc _ _ hs
  unfold State.referencePeriod
  split
  · exact hs
  · simp only
    split
    · exact hd _ _ taken
    · exact State.takeDue_keeps _ he hc _ _ (ht _ taken)
  · simp only
    split
    · exact hd _ _ taken
    · exact State.takeDue_keeps _ he hc _ _ (ht _ taken)

theorem State.countAdvance_store : SameStore s s.countAdvance := by
  unfold State.countAdvance
  split <;> exact ⟨rfl, rfl, rfl⟩

theorem State.advance_acts : Acts s s.advance :=
  State.advance_keeps s (P := Acts s) (fun t e h => h.trans (t.takeExpiry_acts e))
    (fun _ _ h => h.trans (SameStore.acts ⟨rfl, rfl, rfl⟩)) (fun t h => h.trans t.countAdvance_store.acts) (.refl s)

theorem State.referencePeriod_acts : Acts s s.referencePeriod :=
  State.referencePeriod_keeps s (P := Acts s) (fun t e h => h.trans (t.takeExpiry_acts e))
    (fun _ _ h => h.trans (SameStore.acts ⟨rfl, rfl, rfl⟩)) (fun t h => h.trans t.countAdvance_store.acts)
    (fun _ _ h => h.trans (SameStore.acts ⟨rfl, rfl, rfl⟩)) (.refl s)

end Runs

/-! #### The owning blocks' answers -/

section Answers

variable (p : Port) (s : State)

/-- The checks of R27 and R28 in front of a command keep what the refusal and the command itself keep. -/
theorem State.onConduit_keeps {P : State → Prop} {b : Byte} {k : ConduitNo → Channel → Answer} (hs : P s)
    (hk : ∀ n ch, s.channel n = some ch → P (k n ch).state) : P (s.onConduit b k).state := by
  unfold State.onConduit
  split
  · exact hs
  · split
    · exact hs
    · rename_i hc; exact hk _ _ hc

theorem State.asProducer_keeps {P : State → Prop} {b : Byte} {k : ConduitNo → Channel → Answer} (hs : P s)
    (hk : ∀ n ch, s.channel n = some ch → ch.presentProducer p = true → P (k n ch).state) :
    P (s.asProducer p b k).state :=
  s.onConduit_keeps hs (fun n ch hc => by
    split
    · rename_i hp; exact hk n ch hc hp
    · exact hs)

theorem State.asMember_keeps {P : State → Prop} {b : Byte} {k : ConduitNo → Channel → Endpoint → Answer} (hs : P s)
    (hk : ∀ n ch e, s.channel n = some ch → ch.endpoint? p = some e → (∃ f, ch.stage.flow? = some f) →
      P (k n ch e).state) : P (s.asMember p b k).state :=
  s.onConduit_keeps hs (fun n ch hc => by
    split
    · exact hs
    · rename_i e he
      split
      · exact hs
      · rename_i f hf; exact hk n ch e hc he ⟨f, by rw [hf]; rfl⟩
      · rename_i f hf; exact hk n ch e hc he ⟨f, by rw [hf]; rfl⟩)

theorem nextEventAnswer_acts : Acts s (nextEventAnswer p s).state := by
  unfold nextEventAnswer
  split
  · exact .refl s
  · exact SameStore.acts ⟨rfl, rfl, rfl⟩

theorem proposeAnswer_acts (q : PerPort QuotaArgument) : Acts s (proposeAnswer p q s).state := by
  unfold proposeAnswer
  simp only
  split
  · exact .refl s
  · split
    · exact .refl s
    · split
      · exact .refl s
      · split
        · exact .refl s
        · exact s.makeProposal_acts p _

theorem voteAnswer_acts (id choice : Byte) : Acts s (voteAnswer p id choice s).state := by
  unfold voteAnswer
  split
  · exact .refl s
  · split
    · exact .refl s
    · split
      · exact .refl s
      · split
        · exact .refl s
        · exact (s.resolveProposal_store _ _).acts
        · have recorded : ∀ x, SameStore s { s with partition := { s.partition with proposal := x } } :=
            fun _ => ⟨rfl, rfl, rfl⟩
          simp only
          split
          · exact (recorded _).acts
          · exact (recorded _).acts.trans (State.adoptProposal_acts _ _)

theorem cancelProposalAnswer_acts (id : Byte) : Acts s (cancelProposalAnswer p id s).state := by
  unfold cancelProposalAnswer
  split
  · exact .refl s
  · split
    · exact .refl s
    · split
      · exact .refl s
      · exact (s.resolveProposal_store _ _).acts

theorem peekAnswer_acts (b : Byte) : Acts s (peekAnswer p b s).state :=
  s.asMember_keeps p (.refl s) (fun n ch e _ _ _ => by
    split
    · exact .refl s
    · exact (Act.claim s .peek _).acts)

theorem readHeldAnswer_acts (b : Byte) (q : Half) : Acts s (readHeldAnswer p b q s).state :=
  s.asMember_keeps p (.refl s) (fun n ch e _ _ _ => by
    split
    · exact .refl s
    · exact (Act.claim s .heldRead _).acts)

theorem releaseAnswer_acts (b : Byte) (q : Half) : Acts s (releaseAnswer p b q s).state :=
  s.asMember_keeps p (.refl s) (fun n ch e _ _ _ => by
    split
    · exact ((s.dropHold_acts p n _).trans (Act.claim _ .release _).acts).trans (State.drainCheck_acts _ n)
    · split
      · exact s.updateEndpoint_acts p n (fun _ => ⟨.refl _, .refl _⟩)
      · exact .refl s)

theorem flushAnswer_acts (b : Byte) : Acts s (flushAnswer p b s).state :=
  s.asProducer_keeps p (.refl s) (fun n ch _ _ => by
    have flushed := (s.foldl_acts (fun s e => s.flushMember_acts n e) ch.members).trans (State.drainCheck_acts _ n)
    split
    · exact .refl s
    · exact flushed
    · exact flushed)

theorem attendAnswer_acts (target vector : Byte) (argument : Half) :
    Acts s (attendAnswer p target vector argument s).state := by
  unfold attendAnswer
  split
  · exact .refl s
  · split
    · exact .refl s
    · split
      · exact .refl s
      · split
        · exact .refl s
        · exact SameStore.acts ⟨rfl, rfl, rfl⟩

theorem acceptAttnAnswer_acts : Acts s (acceptAttnAnswer p s).state := by
  unfold acceptAttnAnswer
  split
  · exact .refl s
  · rename_i e rest _
    have taken : SameStore s { s with attention :=
        (s.attention.setQueue p rest).setPair e.source p .taken } := ⟨rfl, rfl, rfl⟩
    exact (taken.appendEvent _ _).acts

theorem withdrawAttnAnswer_acts (target : Byte) : Acts s (withdrawAttnAnswer p target s).state := by
  unfold withdrawAttnAnswer
  split
  · exact .refl s
  · split
    · exact .refl s
    · split
      · exact .refl s
      · exact SameStore.acts ⟨rfl, rfl, rfl⟩
      · exact SameStore.acts ⟨rfl, rfl, rfl⟩

theorem offerAnswer_acts (ms cl w : Byte) (sz hl : Half) : Acts s (offerAnswer p ms cl w sz hl s).state := by
  unfold offerAnswer
  split
  · exact .refl s
  · split
    · exact .refl s
    · split
      · exact .refl s
      · split
        · exact .refl s
        · split
          · exact .refl s
          · rename_i hq
            split
            · exact .refl s
            · rename_i n hn
              have hfree : s.channel n = none := by simpa using List.find?_some hn
              exact s.makeOffer_acts p n _ _ _ _ _ hfree (by simpa using hq)

theorem answerAnswer_acts (b g ch wl : Byte) (sl : Half) : Acts s (answerAnswer p b g ch wl sl s).state :=
  s.onConduit_keeps (.refl s) (fun n x hc => by
    split
    · exact .refl s
    · split
      · exact .refl s
      · exact .refl s
      · rename_i d hd
        split
        · exact .refl s
        · split
          · exact .refl s
          · split
            · exact .refl s
            · exact s.failOffer_acts n _ _
            · split
              · exact s.recordAccept_acts p n hc hd _ _
              · exact .refl s)

theorem closeAnswer_acts (b : Byte) : Acts s (closeAnswer p b s).state :=
  s.asProducer_keeps p (.refl s) (fun n ch hc _ => by
    split
    · exact s.failOffer_acts n _ _
    · rename_i f hf
      have hfl : ch.stage.flow? = some f := by rw [hf]; rfl
      exact (Act.use hc ch.drain_producer (by rw [ch.drain_stage hfl]; exact .drain hfl)
        (by rw [ch.drain_members]; exact .refl _)).acts.trans
        ((State.appendEvents_store _ _ _).acts.trans (State.drainCheck_acts _ n))
    · exact .refl s)

theorem leaveAnswer_acts (b : Byte) : Acts s (leaveAnswer p b s).state :=
  s.asMember_keeps p (.refl s) (fun n _ _ _ _ _ => s.removeMember_acts p n _)

theorem conduitInfoAnswer_acts (b : Byte) : Acts s (conduitInfoAnswer b s).state := by
  unfold conduitInfoAnswer
  split <;> exact .refl s

end Answers

/-! #### The three deeds -/

/-- The payload bytes a row begins by taking in, if it takes any. -/
def Received (s t : State) : Prop := t = s ∨ ∃ p bytes, t = s.receivePayload p bytes

/-- A POST has passed its checks on a port that fills nothing, and its fill has begun (R51, R52). -/
def Posted (s t : State) : Prop :=
  ∃ (p : Port) (n : ConduitNo) (ch : Channel) (f : Flow) (h : Handle) (rest : List Handle) (length : Nat),
    s.fillHandle? p = none ∧ s.channel n = some ch ∧ ch.producer = p ∧ ch.stage = .opened f ∧
    f.outstanding < f.window ∧ s.sequenceInUse n f.nextSequence = false ∧ s.segmentQuotaAllows p length = true ∧
    s.pool.freeList = h :: rest ∧ SameStore (s.startFill h p n length) t

/-- A fill in flight has been delivered (R8, R55). -/
def Delivered (s t : State) : Prop :=
  ∃ (p : Port) (h : Handle) (g : Segment) (n : ConduitNo) (ch : Channel) (f : Flow),
    s.fillHandle? p = some h ∧ s.segment h = some g ∧ s.deliveryTarget g = some (n, ch, f) ∧
    SameStore (s.deliver h g n ch f) t

/-- The head of a member's delivery queue has been taken (R68). -/
def Taken (s t : State) : Prop :=
  ∃ (p : Port) (n : ConduitNo) (ch : Channel) (e : Endpoint) (h : Handle) (rest : List Handle),
    s.channel n = some ch ∧ (∃ f, ch.stage.flow? = some f) ∧ ch.endpoint? p = some e ∧ e.queue = h :: rest ∧
    SameStore (s.takeHead p n ch h) t

/-- What a row does to the pool, the slots and the active quotas once it has taken in its payload bytes. -/
def Done (s t : State) : Prop := Acts s t ∨ Posted s t ∨ Delivered s t ∨ Taken s t

theorem Done.store {s t u : State} (h : Done s t) (hu : SameStore t u) : Done s u := by
  obtain h | ⟨p, n, ch, f, hd, rest, len, h1, h2, h3, h4, h5, h6, h7, h8, h9⟩ |
    ⟨p, hd, g, n, ch, f, h1, h2, h3, h4⟩ | ⟨p, n, ch, e, hd, rest, h1, h2, h3, h4, h5⟩ := h
  · exact .inl (h.trans hu.acts)
  · exact .inr (.inl ⟨p, n, ch, f, hd, rest, len, h1, h2, h3, h4, h5, h6, h7, h8, h9.trans hu⟩)
  · exact .inr (.inr (.inl ⟨p, hd, g, n, ch, f, h1, h2, h3, h4.trans hu⟩))
  · exact .inr (.inr (.inr ⟨p, n, ch, e, hd, rest, h1, h2, h3, h4, h5.trans hu⟩))

theorem Received.refl (s : State) : Received s s := .inl rfl

theorem State.completeFill_done (s : State) (p : Port) {h : Handle} (hf : s.fillHandle? p = some h) (count : Nat) :
    Done s (s.completeFill p h count) := by
  unfold State.completeFill
  split
  · exact .inl (.refl s)
  · rename_i g hg
    split
    · exact .inl ((Act.free s h).acts.trans (State.setPort_store _ p _).acts)
    · split
      · exact .inl ((Act.free s h).acts.trans (State.setPort_store _ p _).acts)
      · rename_i n ch f ht
        exact .inr (.inr (.inl ⟨p, h, g, n, ch, f, hf, hg, ht, State.setPort_store _ p _⟩))

theorem State.releaseSelect_done (s : State) (p : Port) : Done s (s.releaseSelect p) := by
  unfold State.releaseSelect
  split
  · exact .inl (.refl s)
  · split
    · exact .inl (s.setPort_store p _).acts
    · exact .inl (s.setPort_store p _).acts
    · exact .inl ((s.endTransfer_acts p).trans (State.setPort_store _ p _).acts)
    · split
      · exact .inl (s.setPort_store p _).acts
      · rename_i h hf
        exact (s.completeFill_done p hf _).store (State.setPort_store _ p _)

/-- A POST refuses, or begins a fill. -/
theorem postAnswer_done (p : Port) (b : Byte) (length : Half) (s : State) (hf : s.fillHandle? p = none) :
    Done s (postAnswer p b length s).state :=
  s.asProducer_keeps p (P := Done s) (.inl (.refl s)) (fun n ch hc hp => by
    have refused : ∀ o, Done s (refuse s o).state := fun _ => .inl (.refl s)
    split
    · exact refused _
    · exact refused _
    · rename_i f hs
      split
      · exact refused _
      · split
        · exact refused _
        · split
          · rename_i hw
            have : s.updateChannel n (Channel.mapFlow (fun f => { f with windowLatch := true })) =
                s.setChannel n (some { ch with stage := .opened { f with windowLatch := true } }) := by
              rw [s.updateChannel_of_some n hc]
              simp [Channel.mapFlow, hs, Stage.mapFlow]
            exact .inl (by
              simp only [refuse, this]
              exact (Act.use hc (ch' := { ch with stage := .opened { f with windowLatch := true } }) rfl
                (hs ▸ .latch (Nat.le_of_not_lt hw)) (.refl _)).acts)
          · rename_i hw
            split
            · exact refused _
            · rename_i hq
              split
              · exact refused _
              · rename_i ha
                split
                · exact refused _
                · rename_i h rest hl
                  have hprod : ch.producer = p := by
                    simp only [Channel.presentProducer, Bool.and_eq_true, beq_iff_eq] at hp
                    exact hp.1
                  exact .inr (.inl ⟨p, n, ch, f, h, rest, length.toNat, hf, hc, hprod, hs, by omega,
                    by simpa using hq, by simpa using ha, hl, .refl _⟩))

/-- A TAKE refuses, or takes. -/
theorem takeAnswer_done (p : Port) (b : Byte) (s : State) : Done s (takeAnswer p b s).state :=
  s.asMember_keeps p (P := Done s) (.inl (.refl s)) (fun n ch e hc he hf => by
    split
    · exact .inl (.refl s)
    · rename_i h rest hq
      split
      · exact .inl (.refl s)
      · exact .inr (.inr (.inr ⟨p, n, ch, e, h, rest, hc, hf, he, hq, .refl _⟩)))

/-- The slot the arbiter looks at has the port waiting (R69). -/
theorem State.waiting?_some {s : State} {p : Port} {n : ConduitNo} {ch : Channel} {e : Endpoint} {h : Handle}
    (hw : s.waiting? p n = some (ch, e, h)) :
    s.channel n = some ch ∧ (∃ f, ch.stage.flow? = some f) ∧ ch.endpoint? p = some e ∧ ∃ rest, e.queue = h :: rest := by
  unfold State.waiting? at hw
  split at hw
  · cases hw
  · rename_i x hx
    split at hw
    · rename_i f y hf hy
      split at hw
      · cases hw
      · rename_i k rest hq
        simp only [Option.some.injEq, Prod.mk.injEq] at hw
        obtain ⟨rfl, rfl, rfl⟩ := hw
        exact ⟨hx, ⟨f, hf⟩, hy, rest, hq⟩
    · cases hw

theorem takeAnyAnswer_done (p : Port) (s : State) : Done s (takeAnyAnswer p s).state := by
  unfold takeAnyAnswer
  split
  · split <;> exact .inl (.refl s)
  · split
    · exact .inl (.refl s)
    · rename_i hw
      obtain ⟨hc, hf, he, rest, hq⟩ := State.waiting?_some hw
      exact .inr (.inr (.inr ⟨p, _, _, _, _, rest, hc, hf, he, hq, State.setPort_store _ p _⟩))

/-! #### Rows -/

/-- In the command phase, and in the arguments phase, a port has neither a fill nor a transfer. -/
theorem State.no_fill_of_phase {s : State} {p : Port} {t : Transaction} (ht : (s.port p).transaction = some t)
    (hp : t.phase ≠ .payload) : s.fillHandle? p = none := by
  simp [State.fillHandle?, ht, hp]

theorem State.no_transfer_of_phase {s : State} {p : Port} {t : Transaction} (ht : (s.port p).transaction = some t)
    (hp : t.phase ≠ .reply) : s.transferHandle? p = none := by
  simp [State.transferHandle?, ht, hp]

/-- A command frame takes in payload bytes, or does what its owning block does. -/
theorem State.transact_done (s : State) (p : Port) (c : Command) (args : List Byte) (named : Option ConduitNo)
    (owner : State → Answer) (ho : s.fillHandle? p = none → Done s (owner s).state) :
    ∃ s1, Received s s1 ∧ Done s1 (s.transact p c args named owner) := by
  have same : ∃ s1, Received s s1 ∧ Done s1 s := ⟨s, .refl s, .inl (.refl s)⟩
  unfold State.transact
  split
  · rename_i shown t _ ht
    have accepted : ∀ a, t.phase ≠ .payload → (s.fillHandle? p = none → Done s a.state) →
        ∃ s1, Received s s1 ∧ Done s1 (State.accept p c named t a) := fun a hp ha =>
      ⟨s, .refl s, (ha (State.no_fill_of_phase ht hp)).store (State.accept_store p c named t a)⟩
    have frame : t.phase ≠ .payload → ∃ s1, Received s s1 ∧ Done s1
        (if t.phase.continuedBy c.code args then
          match admission c shown with
          | some refusal => State.accept p c named t (refuse s refusal)
          | none => State.accept p c named t (owner s)
        else s) := fun hp => by
      split
      · split
        · exact accepted _ hp (fun _ => .inl (.refl s))
        · exact accepted _ hp ho
      · exact same
    split
    · exact same
    · exact ⟨_, .inr ⟨p, c.code :: args, rfl⟩, .inl (.refl _)⟩
    · rename_i hp; exact frame (by rw [hp]; simp)
    · rename_i hp; exact frame (by rw [hp]; simp)
  · exact same

theorem execPortResetAsserted_acts {p : Port} {s t : State} (h : execPortResetAsserted p s = .next t) : Acts s t := by
  unfold execPortResetAsserted at h
  simp only [Host.Outcome.next.injEq] at h
  subst h
  split
  · exact ((s.abort_acts p).trans (State.depart_acts _ p _ _)).trans (State.setPort_store _ p _).acts
  · exact (s.abort_acts p).trans ((State.setPort_store _ p _).trans (State.setPort_store _ p _)).acts
  · split
    · exact (((s.setPort_store p _).trans (State.setPort_store _ p _)).trans (State.setPort_store _ p _)).acts
    · exact (s.setPort_store p _).acts

theorem execPortResetReleased_acts {p : Port} {s t : State} (h : execPortResetReleased p s = .next t) : Acts s t := by
  unfold execPortResetReleased at h
  simp only [Host.Outcome.next.injEq] at h
  subst h
  split
  · split
    · exact ((s.setPort_store p _).trans (State.setPort_store _ p _)).acts
    · exact (s.setPort_store p _).acts
    · exact (s.setPort_store p _).acts
  · exact .refl s

theorem execSelectAsserted_done {p : Port} {s t : State} (h : execSelectAsserted p s = .next t) : Done s t := by
  unfold execSelectAsserted at h
  simp only [Host.Outcome.next.injEq] at h
  subst h
  split
  · exact .inl (.refl s)
  · exact (s.releaseSelect_done p).store (State.setPort_store _ p _)

/-- What every row does: it may take in payload bytes, and then it is a run of acts, a POST that begins its fill, a
completion that delivers, or a TAKE. -/
theorem exec_done {i : Instr} {s t : State} (h : exec i s = .next t) : ∃ s1, Received s s1 ∧ Done s1 t := by
  have command : ∀ {p c args named} {owner : State → Answer}, Acts s (owner s).state →
      Host.Outcome.next (s.transact p c args named owner) = (.next t : Host.Outcome State Fault Refusal) →
      ∃ s1, Received s s1 ∧ Done s1 t := by
    intro p c args named owner ho he
    cases he
    exact s.transact_done p c args named owner (fun _ => .inl ho)
  have acts : Acts s t → ∃ s1, Received s s1 ∧ Done s1 t := fun ha => ⟨s, .refl s, .inl ha⟩
  cases i with
  | status p => exact command (.refl s) h
  | attach p => exact command (s.attach_store p).acts h
  | detach p => exact command (s.depart_acts p _ _) h
  | nextEvent p => exact command (nextEventAnswer_acts p s) h
  | offer p ms cl w sz hl => exact command (offerAnswer_acts p s ms cl w sz hl) h
  | answer p c g ch wl sl => exact command (answerAnswer_acts p s c g ch wl sl) h
  | close p c => exact command (closeAnswer_acts p s c) h
  | leave p c => exact command (leaveAnswer_acts p s c) h
  | flush p c => exact command (flushAnswer_acts p s c) h
  | conduitInfo p c => exact command (conduitInfoAnswer_acts s c) h
  | post p c len =>
    cases h
    exact s.transact_done p _ _ _ _ (fun hf => postAnswer_done p c len s hf)
  | take p c =>
    cases h
    exact s.transact_done p _ _ _ _ (fun _ => takeAnswer_done p c s)
  | takeAny p =>
    cases h
    exact s.transact_done p _ _ _ _ (fun _ => takeAnyAnswer_done p s)
  | peek p c => exact command (peekAnswer_acts p s c) h
  | readHeld p c q => exact command (readHeldAnswer_acts p s c q) h
  | release p c q => exact command (releaseAnswer_acts p s c q) h
  | attend p t v a => exact command (attendAnswer_acts p s t v a) h
  | acceptAttn p => exact command (acceptAttnAnswer_acts p s) h
  | withdrawAttn p t => exact command (withdrawAttnAnswer_acts p s t) h
  | propose p q => exact command (proposeAnswer_acts p s q) h
  | vote p id ch => exact command (voteAnswer_acts p s id ch) h
  | cancelProposal p id => exact command (cancelProposalAnswer_acts p s id) h
  | readPartition p => exact command (.refl s) h
  | poolInfo p => exact command (.refl s) h
  | segmentInfo p x => exact command (.refl s) h
  | badCommand p code =>
    simp only [exec, execBadCommand] at h
    split at h
    · cases h
      obtain hs | hr := s.refuseCode_store p code
      · exact acts hs.acts
      · exact ⟨_, .inr ⟨p, [code], rfl⟩, .inl (by rw [hr])⟩
    · cases h
  | truncated p code args =>
    simp only [exec, execTruncated] at h
    split at h
    · split at h
      · cases h; exact acts (s.refuseTruncated_store p code args).acts
      · cases h
    · cases h
  | fillCompletion p bytes =>
    simp only [exec, execFillCompletion, Host.Outcome.next.injEq] at h
    subst h
    split
    · exact ⟨_, .inr ⟨p, bytes, rfl⟩, State.releaseSelect_done _ p⟩
    · exact ⟨s, .refl s, .inl (.refl s)⟩
  | transferEnd p => cases h; exact ⟨s, .refl s, s.releaseSelect_done p⟩
  | portResetAsserted p => exact acts (execPortResetAsserted_acts h)
  | portResetReleased p => exact acts (execPortResetReleased_acts h)
  | globalResetAsserted => cases h; exact acts (Act.powerOn rfl rfl rfl).acts
  | globalResetReleased =>
    simp only [exec, execGlobalResetReleased, Host.Outcome.next.injEq] at h
    refine acts ?_
    subst h
    split
    · exact SameStore.acts ⟨rfl, rfl, rfl⟩
    · exact .refl s
  | intervalAdvance => cases h; exact acts s.advance_acts
  | endOfStartUp =>
    simp only [exec, execEndOfStartUp, Host.Outcome.next.injEq] at h
    refine acts ?_
    subst h
    split
    · exact SameStore.acts ⟨rfl, rfl, rfl⟩
    · exact .refl s
  | offerLapse n => cases h; exact acts (s.lapseOffer_acts n)
  | proposalLapse => cases h; exact acts s.lapseProposal_store.acts
  | holdLapse n p q => cases h; exact acts (s.lapseHold_acts p n q)
  | selectAsserted p => exact ⟨s, .refl s, execSelectAsserted_done h⟩

end Sys2Proof.Machine


/-! ### The pool's accounts -/

namespace Sys2Proof.Machine

section Accounts

variable {s t : State}

/-! #### Payload bytes and deliveries -/

/-- A descriptor's payload with these bytes stored behind it, up to its length (R53). -/
def Segment.stored (bytes : List Byte) (g : Segment) : Segment :=
  { g with payload := (g.payload ++ bytes).take g.length }

theorem State.transaction_of_fill {p : Port} {h : Handle} (hf : s.fillHandle? p = some h) :
    ∃ x, (s.port p).transaction = some x ∧ x.phase = .payload ∧ (s.port p).outcome.handle = some h := by
  unfold State.fillHandle? at hf
  split at hf
  · rename_i x hx
    split at hf
    · rename_i hp; exact ⟨x, hx, hp, hf⟩
    · cases hf
  · cases hf

theorem State.transaction_of_transfer {p : Port} {h : Handle} (hf : s.transferHandle? p = some h) :
    ∃ x, (s.port p).transaction = some x ∧ x.phase = .reply ∧ (s.port p).outcome.isRead = true ∧
      (s.port p).outcome.handle = some h := by
  unfold State.transferHandle? at hf
  split at hf
  · rename_i x hx
    split at hf
    · rename_i hp; exact ⟨x, hx, hp.1, hp.2, hf⟩
    · cases hf
  · cases hf

theorem State.receivePayload_of_no_fill {p : Port} (bytes : List Byte) (hf : s.fillHandle? p = none) :
    s.receivePayload p bytes = s := by
  unfold State.receivePayload
  simp [hf]

theorem State.receivePayload_of_fill {p : Port} {h : Handle} {x : Transaction} (bytes : List Byte)
    (hf : s.fillHandle? p = some h) (hx : (s.port p).transaction = some x) :
    s.receivePayload p bytes =
      (s.setPort p { s.port p with transaction := some { x with byteCount := x.byteCount + bytes.length } }).setSegment h
        ((s.segment h).map (Segment.stored bytes)) := by
  unfold State.receivePayload
  simp only [hx, hf]
  cases hg : s.segment h with
  | none =>
    have : s.pool.descriptors.set h none = s.pool.descriptors := by
      rw [← show s.pool.descriptors[h] = none from hg]; simp
    simp only [State.setSegment, this, Option.map_none, State.setPort_pool]
    rfl
  | some g => rfl

/-- Payload bytes change nothing but the descriptor of the fill and the port's count of bytes. -/
theorem State.receivePayload_shape (s : State) (p : Port) (bytes : List Byte) :
    ∃ ports descriptors, s.receivePayload p bytes =
      { s with ports, pool := { s.pool with descriptors } } := by
  cases hf : s.fillHandle? p with
  | none => exact ⟨s.ports, s.pool.descriptors, by rw [State.receivePayload_of_no_fill bytes hf]⟩
  | some h =>
    obtain ⟨x, hx, -, -⟩ := State.transaction_of_fill hf
    exact ⟨_, _, by rw [State.receivePayload_of_fill bytes hf hx]; rfl⟩

theorem State.receivePayload_segment (s : State) (p : Port) (bytes : List Byte) (k : Handle) :
    (s.receivePayload p bytes).segment k =
      if s.fillHandle? p = some k then (s.segment k).map (Segment.stored bytes) else s.segment k := by
  cases hf : s.fillHandle? p with
  | none => rw [State.receivePayload_of_no_fill bytes hf]; simp
  | some h =>
    obtain ⟨x, hx, -, -⟩ := State.transaction_of_fill hf
    rw [State.receivePayload_of_fill bytes hf hx, State.setSegment_segment]
    by_cases hk : k = h
    · subst hk; simp
    · have : h ≠ k := fun e => hk e.symm
      simp [hk, this]

theorem State.receivePayload_channel (s : State) (p : Port) (bytes : List Byte) (n : ConduitNo) :
    (s.receivePayload p bytes).channel n = s.channel n := by
  obtain ⟨ports, ds, he⟩ := s.receivePayload_shape p bytes
  rw [he]
  rfl

/-- A delivery's changes: the channel, the descriptor and the records. -/
theorem State.deliver_eq (s : State) (h : Handle) (g : Segment) (n : ConduitNo) (ch : Channel) (f : Flow) :
    s.deliver h g n ch f =
      (((s.setChannel n (some { ch with
          members := ch.members.map (fun e => { e with queue := e.queue ++ [h] })
          stage := ch.stage.mapFlow (fun f => { f with nextSequence := f.nextSequence + 1 }) })).setSegment h
        (some { g with
          stage := .live f.nextSequence { queue := ch.members.length, hold := 0, transfer := 0 } })).appendEvents
        ((ch.members.filter (fun e => e.queue.isEmpty)).map (fun e => e.port)) (.arrived n)) := rfl

theorem State.deliver_segment (s : State) (h : Handle) (g : Segment) (n : ConduitNo) (ch : Channel) (f : Flow)
    (k : Handle) : (s.deliver h g n ch f).segment k =
      if k = h then some { g with stage := .live f.nextSequence { queue := ch.members.length, hold := 0, transfer := 0 } }
      else s.segment k := by
  rw [State.deliver_eq, State.appendEvents_segment, State.setSegment_segment]
  rfl

theorem State.deliver_channel (s : State) (h : Handle) (g : Segment) (n : ConduitNo) (ch : Channel) (f : Flow)
    (m : ConduitNo) : (s.deliver h g n ch f).channel m =
      if m = n then some { ch with
        members := ch.members.map (fun e => { e with queue := e.queue ++ [h] })
        stage := ch.stage.mapFlow (fun f => { f with nextSequence := f.nextSequence + 1 }) }
      else s.channel m := by
  rw [State.deliver_eq, State.appendEvents_channel, State.setSegment_channel, State.setChannel_channel]

/-- Where a fill is delivered (R8, R55). -/
theorem State.deliveryTarget_eq_some {g : Segment} {n : ConduitNo} {ch : Channel} {f : Flow}
    (h : s.deliveryTarget g = some (n, ch, f)) :
    g.conduit = some n ∧ s.channel n = some ch ∧ ch.stage.flow? = some f ∧ ch.members ≠ [] := by
  unfold State.deliveryTarget at h
  split at h
  · cases h
  · rename_i m hm
    split at h
    · cases h
    · rename_i c hc
      split at h
      · cases h
      · rename_i x hx
        split at h
        · cases h
        · rename_i he
          simp only [Option.some.injEq, Prod.mk.injEq] at h
          obtain ⟨rfl, rfl, rfl⟩ := h
          exact ⟨hm, hc, hx, by simpa using he⟩

theorem State.startFill_segment (s : State) (h : Handle) (p : Port) (n : ConduitNo) (length : Nat) (k : Handle) :
    (s.startFill h p n length).segment k =
      if k = h then some { producer := p, conduit := some n, length, payload := [], stage := .filling }
      else s.segment k := by
  rw [State.startFill, State.updateChannel_segment]
  exact getElem_set_handle h k s.pool.descriptors _

theorem State.startFill_channel (s : State) (h : Handle) (p : Port) (n : ConduitNo) (length : Nat) (m : ConduitNo) :
    (s.startFill h p n length).channel m =
      if m = n then (s.channel n).map (Channel.mapFlow (fun f => { f with outstanding := f.outstanding + 1 }))
      else s.channel m := by
  rw [State.startFill, State.updateChannel_channel]
  rfl

/-! #### Charges -/

/-- Who produced a descriptor outside FREE, and its length: what it is charged by (R6). -/
def State.ownerOf (s : State) (h : Handle) : Option (Port × Nat) := (s.segment h).map Segment.owner

/-- The producer field of a slot in use (R29). -/
def State.producerOf (s : State) (n : ConduitNo) : Option Port := (s.channel n).map Channel.producer

/-- The blocks of the descriptors a port produced (R6). -/
def State.blocksBy (s : State) (p : Port) : Nat :=
  total (fun d => blocksOf p (d.map Segment.owner)) s.pool.descriptors

/-- The number of descriptors a port produced (R6). -/
def State.descriptorsBy (s : State) (p : Port) : Nat :=
  total (fun d => descriptorsOf p (d.map Segment.owner)) s.pool.descriptors

theorem State.blocksBy_congr (h : ∀ k, t.ownerOf k = s.ownerOf k) (p : Port) : t.blocksBy p = s.blocksBy p :=
  total_eq_of_getElem (fun i hi => congrArg (blocksOf p) (h ⟨i, hi⟩))

theorem State.descriptorsBy_congr (h : ∀ k, t.ownerOf k = s.ownerOf k) (p : Port) :
    t.descriptorsBy p = s.descriptorsBy p :=
  total_eq_of_getElem (fun i hi => congrArg (descriptorsOf p) (h ⟨i, hi⟩))

/-- One descriptor replaced: its old charge goes and its new one comes. -/
theorem State.blocksBy_set {h : Handle} {d : Option Segment}
    (ht : t.pool.descriptors = s.pool.descriptors.set h d) (p : Port) :
    t.blocksBy p + blocksOf p (s.ownerOf h) = s.blocksBy p + blocksOf p (d.map Segment.owner) := by
  unfold State.blocksBy
  rw [ht]
  exact total_set (fun d => blocksOf p (d.map Segment.owner)) s.pool.descriptors h.val h.isLt d

theorem State.descriptorsBy_set {h : Handle} {d : Option Segment}
    (ht : t.pool.descriptors = s.pool.descriptors.set h d) (p : Port) :
    t.descriptorsBy p + descriptorsOf p (s.ownerOf h) =
      s.descriptorsBy p + descriptorsOf p (d.map Segment.owner) := by
  unfold State.descriptorsBy
  rw [ht]
  exact total_set (fun d => descriptorsOf p (d.map Segment.owner)) s.pool.descriptors h.val h.isLt d

theorem State.chargedConduits_le (h : ∀ n p, t.producerOf n = some p → s.producerOf n = some p) (p : Port) :
    t.chargedConduits p ≤ s.chargedConduits p := by
  rw [chargedConduits_eq, chargedConduits_eq]
  unfold total
  have key : ∀ i (hi : i < 24), conduitsOf p (t.conduits[i].channel.map Channel.producer) ≤
      conduitsOf p (s.conduits[i].channel.map Channel.producer) := by
    intro i hi
    have := h ⟨i, hi⟩ p
    unfold conduitsOf
    split
    · rename_i ht; exact (if_pos (this ht)).ge
    · exact Nat.zero_le _
  apply List.Forall₂.sum_le_sum
  rw [List.forall₂_iff_get]
  refine ⟨by simp, fun i h1 h2 => ?_⟩
  simpa using key i (by simpa using h1)

theorem State.chargedConduits_set {n : ConduitNo} {c : Conduit} (ht : t.conduits = s.conduits.set n c) (p : Port) :
    t.chargedConduits p + conduitsOf p (s.producerOf n) =
      s.chargedConduits p + conduitsOf p (c.channel.map Channel.producer) := by
  rw [chargedConduits_eq, chargedConduits_eq, ht]
  exact total_set (fun c => conduitsOf p (c.channel.map Channel.producer)) s.conduits n.val n.isLt c

/-! #### The law -/

theorem accountingLaw_iff : AccountingLaw s ↔
    (s.pool.freeList.Nodup ∧ (∀ h, h ∈ s.pool.freeList ↔ s.segment h = none) ∧
      s.pool.freeBlocks + s.pool.chargedBlocks.sum = 512 ∧
      (∀ p, s.pool.chargedBlocks.get p = s.blocksBy p) ∧
      (∀ p, s.pool.chargedDescriptors.get p = s.descriptorsBy p) ∧
      ∀ p, s.pool.chargedBlocks.get p ≤ (s.partition.quotas.get p).blocks ∧
        s.pool.chargedDescriptors.get p ≤ (s.partition.quotas.get p).descriptors ∧
        s.chargedConduits p ≤ (s.partition.quotas.get p).conduits) := by
  constructor
  · rintro ⟨h1, h2, h3, h4, h5, h6⟩
    exact ⟨h1, h2, h3, fun p => (h4 p).trans (producedBy_blocks s p), fun p => (h5 p).trans (producedBy_length s p), h6⟩
  · rintro ⟨h1, h2, h3, h4, h5, h6⟩
    exact ⟨h1, h2, h3, fun p => (h4 p).trans (producedBy_blocks s p).symm,
      fun p => (h5 p).trans (producedBy_length s p).symm, h6⟩

/-- What the accounts are kept by: the lists and counts stay, and no slot gains a producer. -/
structure SameBooks (s t : State) : Prop where
  freeBlocks : t.pool.freeBlocks = s.pool.freeBlocks
  freeList : t.pool.freeList = s.pool.freeList
  chargedBlocks : t.pool.chargedBlocks = s.pool.chargedBlocks
  chargedDescriptors : t.pool.chargedDescriptors = s.pool.chargedDescriptors
  quotas : t.partition.quotas = s.partition.quotas
  owners : ∀ h, t.ownerOf h = s.ownerOf h
  producers : ∀ n p, t.producerOf n = some p → s.producerOf n = some p

theorem State.ownerOf_eq_none {h : Handle} : s.ownerOf h = none ↔ s.segment h = none := by simp [State.ownerOf]

theorem SameBooks.law (b : SameBooks s t) (h : AccountingLaw s) : AccountingLaw t := by
  rw [accountingLaw_iff] at h ⊢
  obtain ⟨once, listed, total, blocks, descriptors, quota⟩ := h
  refine ⟨b.freeList ▸ once, fun k => ?_, ?_, fun p => ?_, fun p => ?_, fun p => ?_⟩
  · rw [b.freeList, listed k, ← State.ownerOf_eq_none, ← State.ownerOf_eq_none, b.owners]
  · rw [b.freeBlocks, b.chargedBlocks, total]
  · rw [b.chargedBlocks, blocks, State.blocksBy_congr b.owners]
  · rw [b.chargedDescriptors, descriptors, State.descriptorsBy_congr b.owners]
  · obtain ⟨hb, hd, hc⟩ := quota p
    rw [b.chargedBlocks, b.chargedDescriptors, b.quotas]
    exact ⟨hb, hd, (State.chargedConduits_le b.producers p).trans hc⟩

theorem SameStore.books (h : SameStore s t) : SameBooks s t :=
  ⟨by rw [h.pool], by rw [h.pool], by rw [h.pool], by rw [h.pool], h.quotas,
   fun k => by rw [State.ownerOf, State.segment_ext (s := s) (by rw [h.pool]), State.ownerOf],
   fun n p hp => by rwa [State.producerOf, State.channel_ext h.conduits] at hp⟩

theorem State.setSegment_books (s : State) {h : Handle} {g g' : Segment} (hg : s.segment h = some g)
    (ho : g'.owner = g.owner) : SameBooks s (s.setSegment h (some g')) :=
  ⟨rfl, rfl, rfl, rfl, rfl,
   fun k => by
     rw [State.ownerOf, State.setSegment_segment]
     split
     · rename_i hk; rw [hk, State.ownerOf, hg]; simp [ho]
     · rfl,
   fun _ _ hp => hp⟩

theorem State.setChannel_books (s : State) {n : ConduitNo} {ch : Option Channel}
    (hp : ∀ p, ch.map Channel.producer = some p → s.producerOf n = some p) : SameBooks s (s.setChannel n ch) :=
  ⟨rfl, rfl, rfl, rfl, rfl, fun _ => rfl, fun m p hm => by
     rw [State.producerOf, State.setChannel_channel] at hm
     split at hm
     · rename_i e; rw [e]; exact hp p hm
     · exact hm⟩

theorem SameBooks.trans {u : State} (a : SameBooks s t) (b : SameBooks t u) : SameBooks s u :=
  ⟨b.freeBlocks.trans a.freeBlocks, b.freeList.trans a.freeList, b.chargedBlocks.trans a.chargedBlocks,
   b.chargedDescriptors.trans a.chargedDescriptors, b.quotas.trans a.quotas,
   fun h => (b.owners h).trans (a.owners h), fun n p h => a.producers n p (b.producers n p h)⟩

theorem State.notify?_books (s : State) (o : Option ConduitNo) : SameBooks s (s.notify? o) :=
  ⟨by simp, by simp, by simp, by simp, by rw [(s.notify?_surroundings o).partition],
   fun h => by simp [State.ownerOf],
   fun n p h => by simpa [State.producerOf, State.notify?_channel] using h⟩

theorem State.teardown_books (s : State) (n : ConduitNo) : SameBooks s (s.teardown n) :=
  ⟨rfl, rfl, rfl, rfl, rfl,
   fun h => by
     rw [State.ownerOf, State.teardown_segment, State.ownerOf, Option.map_map]
     congr 1
     funext g
     exact g.detachFrom_owner n,
   fun m p hm => by
     rw [State.producerOf, State.teardown_channel] at hm
     split at hm
     · cases hm
     · exact hm⟩

theorem State.receivePayload_books (s : State) (p : Port) (bytes : List Byte) :
    SameBooks s (s.receivePayload p bytes) := by
  obtain ⟨ports, ds, he⟩ := s.receivePayload_shape p bytes
  refine ⟨by rw [he], by rw [he], by rw [he], by rw [he], by rw [he], fun k => ?_, fun n q hq => ?_⟩
  · rw [State.ownerOf, State.receivePayload_segment, State.ownerOf]
    split
    · cases s.segment k <;> rfl
    · rfl
  · rwa [State.producerOf, State.receivePayload_channel] at hq

/-- A descriptor freed: it is listed, and its charges end (R16). -/
theorem Pool.reclaim_law {h : Handle} {g : Segment} (hg : s.segment h = some g) (hl : AccountingLaw s) :
    AccountingLaw { s with pool := s.pool.reclaim h g } := by
  rw [accountingLaw_iff] at hl ⊢
  obtain ⟨once, listed, hsum, blocks, descriptors, quota⟩ := hl
  have howner : s.ownerOf h = some g.owner := by rw [State.ownerOf, hg]; rfl
  have hb : ∀ q, ({ s with pool := s.pool.reclaim h g } : State).blocksBy q + blocksOf q (some g.owner) =
      s.blocksBy q := fun q => by
    have := State.blocksBy_set (s := s) (t := { s with pool := s.pool.reclaim h g }) (h := h) (d := none) rfl q
    simpa [howner, blocksOf] using this
  have hd : ∀ q, ({ s with pool := s.pool.reclaim h g } : State).descriptorsBy q + descriptorsOf q (some g.owner) =
      s.descriptorsBy q := fun q => by
    have := State.descriptorsBy_set (s := s) (t := { s with pool := s.pool.reclaim h g }) (h := h) (d := none) rfl q
    simpa [howner, descriptorsOf] using this
  have notIn : h ∉ s.pool.freeList := fun hm => by rw [listed, hg] at hm; cases hm
  have hbp := hb g.producer
  rw [← blocks] at hbp
  have hsum' : (s.pool.chargedBlocks.set g.producer
      (s.pool.chargedBlocks.get g.producer - blockCount g.length)).sum + blockCount g.length =
      s.pool.chargedBlocks.sum := by
    have : blockCount g.length ≤ s.pool.chargedBlocks.get g.producer := by
      simp [blocksOf, Segment.owner] at hbp; omega
    revert this
    cases g.producer <;> simp only [PerPort.sum, PerPort.set, PerPort.get] <;> omega
  refine ⟨?_, fun k => ?_, ?_, fun q => ?_, fun q => ?_, fun q => ?_⟩
  · exact List.Nodup.append once (List.nodup_singleton h) (by simpa using notIn)
  · rw [State.reclaim_segment]
    simp only [Pool.reclaim, List.mem_append, List.mem_singleton, listed k]
    by_cases hk : k = h <;> simp [hk]
  · simp only [Pool.reclaim]; omega
  · have := hb q
    simp only [Pool.reclaim, PerPort.get_set, blocks] at this ⊢
    by_cases hq : q = g.producer
    · subst hq; simp [blocksOf, Segment.owner] at this ⊢; omega
    · have hne : ¬ g.producer = q := fun e => hq e.symm
      simpa [blocksOf, Segment.owner, hq, hne] using this.symm
  · have := hd q
    simp only [Pool.reclaim, PerPort.get_set, descriptors] at this ⊢
    by_cases hq : q = g.producer
    · subst hq; simp [descriptorsOf, Segment.owner] at this ⊢; omega
    · have hne : ¬ g.producer = q := fun e => hq e.symm
      simpa [descriptorsOf, Segment.owner, hq, hne] using this.symm
  · obtain ⟨h1, h2, h3⟩ := quota q
    refine ⟨?_, ?_, h3⟩
    · simp only [Pool.reclaim, PerPort.get_set]
      split
      · rename_i e; subst e; omega
      · exact h1
    · simp only [Pool.reclaim, PerPort.get_set]
      split
      · rename_i e; subst e; omega
      · exact h2

theorem State.freeDescriptor_law (h : Handle) (hl : AccountingLaw s) : AccountingLaw (s.freeDescriptor h) := by
  cases hg : s.segment h with
  | none => rwa [s.freeDescriptor_of_none h hg]
  | some g =>
    rw [s.freeDescriptor_of_some h hg]
    exact (State.notify?_books _ _).law (Pool.reclaim_law hg hl)

theorem State.claim_law (c : Claim) (h : Handle) (hl : AccountingLaw s) : AccountingLaw (s.claim c h) := by
  rw [State.claim_eq]
  refine (State.notify?_books _ _).law ?_
  cases hg : s.segment h with
  | none => rwa [Pool.claimed_of_none h hg]
  | some g =>
    cases hcl : g.claimed c with
    | none => rw [Pool.claimed_of_freed h hg hcl]; exact Pool.reclaim_law hg hl
    | some g' =>
      rw [Pool.claimed_of_kept h hg hcl]
      refine (s.setSegment_books hg ?_).law hl
      unfold Segment.claimed at hcl
      split at hcl
      · cases hcl; rfl
      · split at hcl <;> cases hcl
        rfl

/-- An OFFER into a FREE slot under a quota that allows it (R29, R116). -/
theorem offer_law {n : ConduitNo} {ch : Channel} (generation : Byte) (hc : s.channel n = none)
    (hq : s.conduitQuotaAllows ch.producer = true) (hl : AccountingLaw s) :
    AccountingLaw { s with conduits := s.conduits.set n { generation, channel := some ch } } := by
  rw [accountingLaw_iff] at hl ⊢
  obtain ⟨once, listed, hsum, blocks, descriptors, quota⟩ := hl
  refine ⟨once, listed, hsum, blocks, descriptors, fun q => ?_⟩
  obtain ⟨h1, h2, h3⟩ := quota q
  refine ⟨h1, h2, (?_ : _ ≤ (s.partition.quotas.get q).conduits)⟩
  have hset := State.chargedConduits_set (s := s) (n := n) (c := { generation, channel := some ch })
    (t := { s with conduits := s.conduits.set n { generation, channel := some ch } }) rfl q
  have hnone : s.producerOf n = none := by simp [State.producerOf, hc]
  rw [hnone] at hset
  simp only [conduitsOf, State.conduitQuotaAllows, decide_eq_true_eq, Option.map_some, Option.some.injEq,
    reduceCtorEq, if_false] at hset hq
  by_cases hp : ch.producer = q
  · subst hp; rw [if_pos rfl] at hset; omega
  · rw [if_neg hp] at hset; omega

theorem powerOn_law (hp : t.pool = Pool.initial) (hc : t.conduits = initialConduits)
    (hq : t.partition.quotas = Partition.initial.quotas) : AccountingLaw t := by
  have hseg : ∀ h, t.segment h = none := fun h => by simp [State.segment, hp, Pool.initial]
  have hch : ∀ n, t.channel n = none := fun n => by simp [State.channel, State.conduit, hc, initialConduits]
  rw [accountingLaw_iff, hp, hq]
  refine ⟨by decide +kernel, fun h => ?_, by decide +kernel, fun p => ?_, fun p => ?_, fun p => ?_⟩
  · simp only [hseg, iff_true, Pool.initial, allHandles, List.mem_map, List.mem_range]
    exact ⟨h.val, h.isLt, by simp⟩
  · have : t.blocksBy p = 0 := total_eq_zero_iff.2 (fun i hi => by
      rw [show t.pool.descriptors[i] = none from hseg ⟨i, hi⟩]; rfl)
    rw [this]; simp [Pool.initial]
  · have : t.descriptorsBy p = 0 := total_eq_zero_iff.2 (fun i hi => by
      rw [show t.pool.descriptors[i] = none from hseg ⟨i, hi⟩]; rfl)
    rw [this]; simp [Pool.initial]
  · have : t.chargedConduits p = 0 := by
      rw [chargedConduits_eq]
      exact total_eq_zero_iff.2 (fun i hi => by
        rw [show t.conduits[i].channel = none from hch ⟨i, hi⟩]; rfl)
    simp [this, Pool.initial]

/-- Every elementary act keeps the accounts. -/
theorem Act.keeps_accounts (h : Act s t) (hl : AccountingLaw s) : AccountingLaw t := by
  cases h with
  | store h => exact h.books.law hl
  | claim c h => exact State.claim_law c h hl
  | free h => exact State.freeDescriptor_law h hl
  | teardown n => exact (s.teardown_books n).law hl
  | use hc hp _ _ =>
    exact (s.setChannel_books (fun p hq => by rw [State.producerOf, hc, ← hq]; simp [hp])).law hl
  | offer generation hc _ hq _ => exact offer_law generation hc hq hl
  | adopt hp hc hu =>
    rw [accountingLaw_iff] at hl ⊢
    obtain ⟨once, listed, hsum, blocks, descriptors, _⟩ := hl
    refine ⟨hp ▸ once, fun k => ?_, hp ▸ hsum, fun q => ?_, fun q => ?_, fun q => ?_⟩
    · rw [hp, listed k, State.segment_ext (by rw [hp])]
    · rw [hp, blocks, State.blocksBy, State.blocksBy, hp]
    · rw [hp, descriptors, State.descriptorsBy, State.descriptorsBy, hp]
    · have := hu q
      simp only [State.usageWithin, decide_eq_true_eq] at this
      rw [hp, State.chargedConduits, hc]
      exact this
  | powerOn hp hc hq => exact powerOn_law hp hc hq

/-- A charge within the quotas leaves room: the quotas sum to the whole (R115), so no port's quota reaches into the
others' charges. -/
theorem blockCount_le_freeBlocks {p : Port} {length : Nat} (hquotas : (s.partition.quotas.map Quota.blocks).sum ≤ 512)
    (hl : AccountingLaw s) (hq : s.segmentQuotaAllows p length = true) : blockCount length ≤ s.pool.freeBlocks := by
  have hsum := hl.blocksTotal
  simp only [State.segmentQuotaAllows, decide_eq_true_eq] at hq
  have w0 := (hl.withinQuota .p0).1
  have w1 := (hl.withinQuota .p1).1
  have w2 := (hl.withinQuota .p2).1
  have w3 := (hl.withinQuota .p3).1
  have hqb := hq.2
  revert hqb
  simp only [PerPort.sum, PerPort.map, PerPort.get] at *
  cases p <;> simp only <;> omega

theorem startFill_law {p : Port} {n : ConduitNo} {h : Handle} {rest : List Handle} {length : Nat}
    (hpart : (s.partition.quotas.map Quota.blocks).sum ≤ 512) (hl : AccountingLaw s)
    (hq : s.segmentQuotaAllows p length = true) (hf : s.pool.freeList = h :: rest) : AccountingLaw (s.startFill h p n length) := by
  have hroom := blockCount_le_freeBlocks hpart hl hq
  have hfree : s.segment h = none := (hl.freeListed h).1 (by simp [hf])
  have howner : s.ownerOf h = none := State.ownerOf_eq_none.2 hfree
  have hbooks : SameBooks { s with pool := s.pool.allocate h p n length } (s.startFill h p n length) :=
    ⟨by simp [State.startFill], by simp [State.startFill], by simp [State.startFill], by simp [State.startFill],
     by rw [State.startFill, (State.updateChannel_surroundings _ n _).partition],
     fun k => by simp [State.startFill, State.ownerOf],
     fun m q hm => by
       rw [State.producerOf, State.startFill_channel] at hm
       split at hm
       · rename_i e; subst e; simpa [State.producerOf] using hm
       · exact hm⟩
  refine hbooks.law ?_
  rw [accountingLaw_iff] at hl ⊢
  obtain ⟨once, listed, hsum, blocks, descriptors, quota⟩ := hl
  simp only [State.segmentQuotaAllows, decide_eq_true_eq] at hq
  have hb : ∀ q, ({ s with pool := s.pool.allocate h p n length } : State).blocksBy q =
      s.blocksBy q + if p = q then blockCount length else 0 := fun q => by
    have := State.blocksBy_set (s := s) (t := { s with pool := s.pool.allocate h p n length }) (h := h)
      (d := some { producer := p, conduit := some n, length, payload := [], stage := .filling }) rfl q
    simpa [howner, blocksOf, Segment.owner] using this
  have hd : ∀ q, ({ s with pool := s.pool.allocate h p n length } : State).descriptorsBy q =
      s.descriptorsBy q + if p = q then 1 else 0 := fun q => by
    have := State.descriptorsBy_set (s := s) (t := { s with pool := s.pool.allocate h p n length }) (h := h)
      (d := some { producer := p, conduit := some n, length, payload := [], stage := .filling }) rfl q
    simpa [howner, descriptorsOf, Segment.owner] using this
  have hrest : (h :: rest).Nodup := hf ▸ once
  have hsum' : (s.pool.chargedBlocks.set p (s.pool.chargedBlocks.get p + blockCount length)).sum =
      s.pool.chargedBlocks.sum + blockCount length := by
    cases p <;> simp only [PerPort.sum, PerPort.set, PerPort.get] <;> omega
  refine ⟨?_, fun k => ?_, ?_, fun q => ?_, fun q => ?_, fun q => ?_⟩
  · simp only [Pool.allocate, hf, List.tail_cons]; exact hrest.of_cons
  · have hseg : ({ s with pool := s.pool.allocate h p n length } : State).segment k =
        if k = h then some { producer := p, conduit := some n, length, payload := [], stage := .filling }
        else s.segment k := getElem_set_handle h k _ _
    rw [hseg]
    simp only [Pool.allocate, hf, List.tail_cons]
    by_cases hk : k = h
    · subst hk; simp [(List.nodup_cons.1 hrest).1]
    · rw [if_neg hk, ← listed k, hf]; simp [hk]
  · simp only [Pool.allocate]; omega
  · rw [hb]
    simp only [Pool.allocate, PerPort.get_set, blocks]
    by_cases hqp : q = p
    · subst hqp; simp
    · have : ¬ p = q := fun e => hqp e.symm
      simp [hqp, this]
  · rw [hd]
    simp only [Pool.allocate, PerPort.get_set, descriptors]
    by_cases hqp : q = p
    · subst hqp; simp
    · have : ¬ p = q := fun e => hqp e.symm
      simp [hqp, this]
  · obtain ⟨h1, h2, h3⟩ := quota q
    simp only [Pool.allocate, PerPort.get_set]
    by_cases hqp : q = p
    · subst hqp; simp only [if_true]; exact ⟨hq.2, hq.1, h3⟩
    · simp only [if_neg hqp]; exact ⟨h1, h2, h3⟩

theorem State.deliver_books {h : Handle} {g : Segment} {n : ConduitNo} {ch : Channel} (f : Flow)
    (hg : s.segment h = some g) (hc : s.channel n = some ch) : SameBooks s (s.deliver h g n ch f) := by
  have hset := s.setChannel_books (n := n) (ch := some { ch with
      members := ch.members.map (fun e => { e with queue := e.queue ++ [h] })
      stage := ch.stage.mapFlow (fun f => { f with nextSequence := f.nextSequence + 1 }) })
    (fun p hp => by rw [State.producerOf, hc, ← hp]; rfl)
  have hseg := (s.setChannel n (some { ch with
      members := ch.members.map (fun e => { e with queue := e.queue ++ [h] })
      stage := ch.stage.mapFlow (fun f => { f with nextSequence := f.nextSequence + 1 }) })).setSegment_books
    (g' := { g with stage := .live f.nextSequence { queue := ch.members.length, hold := 0, transfer := 0 } }) hg rfl
  rw [State.deliver_eq]
  exact (hset.trans hseg).trans (State.appendEvents_store _ _ _).books

theorem takeHead_law {p : Port} {n : ConduitNo} {ch : Channel} {h : Handle} (hc : s.channel n = some ch)
    (hl : AccountingLaw s) : AccountingLaw (s.takeHead p n ch h) := by
  have moved : ∀ f, AccountingLaw (s.updateEndpoint n p f) := fun f => by
    rw [State.updateEndpoint, s.updateChannel_of_some n hc]
    exact (s.setChannel_books (fun q hq => by rw [State.producerOf, hc, ← hq]; rfl)).law hl
  exact (State.drainCheck_acts _ n).keeps (fun _ _ hl ha => ha.keeps_accounts hl) (State.claim_law .take h (moved _))

theorem Done.keeps_accounts (hd : Done s t) (hpart : (s.partition.quotas.map Quota.blocks).sum ≤ 512)
    (hl : AccountingLaw s) : AccountingLaw t := by
  obtain ha | ⟨p, n, ch, f, h, rest, len, -, -, -, -, -, -, hq, hf, hs⟩ | ⟨p, h, g, n, ch, f, -, hg, ht, hs⟩ |
    ⟨p, n, ch, e, h, rest, hc, -, -, -, hs⟩ := hd
  · exact ha.keeps (fun _ _ hl ha => ha.keeps_accounts hl) hl
  · exact hs.books.law (startFill_law hpart hl hq hf)
  · obtain ⟨-, hc, -, -⟩ := State.deliveryTarget_eq_some ht
    exact hs.books.law ((State.deliver_books f hg hc).law hl)
  · exact hs.books.law (takeHead_law hc hl)

theorem Received.keeps_accounts (hr : Received s t) (hl : AccountingLaw s) : AccountingLaw t := by
  obtain rfl | ⟨p, bytes, rfl⟩ := hr
  · exact hl
  · exact (s.receivePayload_books p bytes).law hl

theorem Received.partition (hr : Received s t) : t.partition = s.partition := by
  obtain rfl | ⟨p, bytes, rfl⟩ := hr
  · rfl
  · obtain ⟨ports, ds, he⟩ := s.receivePayload_shape p bytes
    rw [he]

end Accounts

/-! #### The step -/

/-- A step is one period of the reference clock, or a row run with the queue's rest. -/
theorem step_cases {s t : State} (h : step s = .next t) :
    (s.pending = [] ∧ t = s.referencePeriod) ∨
    ∃ i rest, s.pending = i :: rest ∧ exec i { s with pending := rest } = .next t := by
  unfold step at h
  split at h
  · rename_i hp
    cases h
    exact .inl ⟨hp, rfl⟩
  · rename_i i rest hp
    exact .inr ⟨i, rest, hp, h⟩

end Sys2Proof.Machine

open Sys2Proof Sys2Proof.Machine in
/-- Settles O11: every elementary act, the fill a POST begins and a delivery keep the accounts. -/
theorem everyStepKeepsTheAccounts : Obligations.EveryStepKeepsTheAccounts := by
  intro s t hpart hl hstep
  obtain ⟨-, rfl⟩ | ⟨i, rest, -, hi⟩ := step_cases hstep
  · exact s.referencePeriod_acts.keeps (fun _ _ hl ha => ha.keeps_accounts hl) hl
  · obtain ⟨s1, hr, hd⟩ := exec_done hi
    have hs : SameStore s { s with pending := rest } := ⟨rfl, rfl, rfl⟩
    exact hd.keeps_accounts (by rw [hr.partition]; exact hpart.activeSums.1) (hr.keeps_accounts (hs.books.law hl))


/-! ### What a passing quota check finds -/

namespace Sys2Proof.Machine

theorem total_add {α : Type} {k : Nat} (w u : α → Nat) (v : Vector α k) :
    total (fun a => w a + u a) v = total w v + total u v := by
  unfold total
  induction v.toList with
  | nil => rfl
  | cons a l ih => simp only [List.map_cons, List.sum_cons]; omega

/-- A table with weight 1 at every entry sums to its size. -/
theorem total_one {α : Type} {k : Nat} {w : α → Nat} {v : Vector α k} (h : ∀ (i : Nat) (hi : i < k), w v[i] = 1) :
    total w v = k := by
  unfold total
  rw [List.eq_replicate_of_mem (a := 1) (l := v.toList.map w)]
  · simp
  · intro b hb
    obtain ⟨a, ha, rfl⟩ := List.mem_map.1 hb
    obtain ⟨i, hi, rfl⟩ := mem_toList_iff_getElem.1 ha
    exact h i hi

/-- With no FREE descriptor left, the charged descriptors are all 256. -/
theorem descriptorsBy_sum_of_full {s : State} (h : ∀ k, s.segment k ≠ none) :
    s.descriptorsBy .p0 + s.descriptorsBy .p1 + s.descriptorsBy .p2 + s.descriptorsBy .p3 = 256 := by
  unfold State.descriptorsBy
  rw [← total_add, ← total_add, ← total_add]
  refine total_one (fun i hi => ?_)
  obtain ⟨g, hg⟩ := Option.ne_none_iff_exists'.1 (h ⟨i, hi⟩)
  rw [show s.pool.descriptors[i] = some g from hg]
  cases hp : g.producer <;> simp [descriptorsOf, Segment.owner, hp]

/-- With no FREE slot left, the charged conduits are all 24. -/
theorem chargedConduits_sum_of_full {s : State} (h : ∀ n, s.channel n ≠ none) :
    s.chargedConduits .p0 + s.chargedConduits .p1 + s.chargedConduits .p2 + s.chargedConduits .p3 = 24 := by
  simp only [chargedConduits_eq]
  rw [← total_add, ← total_add, ← total_add]
  refine total_one (fun i hi => ?_)
  obtain ⟨ch, hc⟩ := Option.ne_none_iff_exists'.1 (h ⟨i, hi⟩)
  rw [show s.conduits[i].channel = some ch from hc]
  cases hp : ch.producer <;> simp [conduitsOf, hp]

end Sys2Proof.Machine

open Sys2Proof Sys2Proof.Machine in
/-- Settles O16: were nothing left, the charges would make the whole, and with the charge checked for they would exceed
the sum of the quotas (R115). -/
theorem quotaThatFitsIsAlwaysServed : Obligations.QuotaThatFitsIsAlwaysServed := by
  intro s p hpart hl
  obtain ⟨hblocks, hdescriptors, hconduits⟩ := hpart.activeSums
  refine ⟨fun length hq => ⟨fun hempty => ?_, blockCount_le_freeBlocks hblocks hl hq⟩, fun hq => ?_⟩
  · have full : ∀ k, s.segment k ≠ none := fun k hk => by
      have := (hl.freeListed k).2 hk
      simp [hempty] at this
    have sum := descriptorsBy_sum_of_full full
    have charged := (accountingLaw_iff.1 hl).2.2.2.2.1
    have within : ∀ q, s.descriptorsBy q ≤ (s.partition.quotas.get q).descriptors := fun q =>
      charged q ▸ (hl.withinQuota q).2.1
    have more : s.descriptorsBy p + 1 ≤ (s.partition.quotas.get p).descriptors := by
      simp only [State.segmentQuotaAllows, decide_eq_true_eq] at hq
      exact charged p ▸ hq.1
    have w0 := within .p0
    have w1 := within .p1
    have w2 := within .p2
    have w3 := within .p3
    simp only [PerPort.sum, PerPort.map, PerPort.get] at hdescriptors w0 w1 w2 w3 more
    cases p <;> simp only at more <;> omega
  · by_contra hnone
    have sum := chargedConduits_sum_of_full (s := s) (fun n hn => hnone ⟨n, hn⟩)
    have w0 := (hl.withinQuota .p0).2.2
    have w1 := (hl.withinQuota .p1).2.2
    have w2 := (hl.withinQuota .p2).2.2
    have w3 := (hl.withinQuota .p3).2.2
    simp only [State.conduitQuotaAllows, decide_eq_true_eq] at hq
    simp only [PerPort.sum, PerPort.map, PerPort.get] at hconduits w0 w1 w2 w3 hq
    cases p <;> simp only at hq <;> omega


/-! ### The law of the windows and the sequences -/

namespace Sys2Proof.Machine

section Windows

variable {s t : State}

/-! #### Counting the descriptors that name a conduit -/

/-- One entry of a table changed: the old weight goes and the new one comes. -/
theorem total_update {α : Type} {k : Nat} {w : α → Nat} {v v' : Vector α k} (j : Nat) (hj : j < k)
    (h : ∀ (i : Nat) (hi : i < k), i ≠ j → w v'[i] = w v[i]) : total w v' + w v[j] = total w v + w v'[j] := by
  have hsame : total w v' = total w (v.set j v'[j]) := total_eq_of_getElem (fun i hi => by
    rw [Vector.getElem_set]
    split
    · rename_i e; subst e; rfl
    · rename_i hne; exact h i hi (fun e => hne e.symm))
  rw [hsame]
  exact total_set w v j hj v'[j]

/-- The conduit field of a descriptor outside FREE. -/
def State.conduitOf (s : State) (h : Handle) : Option ConduitNo := (s.segment h).bind Segment.conduit

theorem State.conduitOf_eq_some {h : Handle} {n : ConduitNo} :
    s.conduitOf h = some n ↔ ∃ g, s.segment h = some g ∧ g.conduit = some n := by
  simp [State.conduitOf, Option.bind_eq_some_iff]

/-- The weight of a descriptor in the count of those that name a conduit. -/
def namingWeight (n : ConduitNo) (o : Option ConduitNo) : Nat := if o = some n then 1 else 0

theorem State.naming_eq (s : State) (n : ConduitNo) :
    s.naming n = total (fun d => namingWeight n (d.bind Segment.conduit)) s.pool.descriptors := by
  unfold State.naming
  rw [countP_toList]
  refine total_eq_of_getElem (fun i hi => ?_)
  cases s.pool.descriptors[i] <;> simp [indicator, namingWeight]

theorem State.naming_congr {n : ConduitNo} (h : ∀ k, t.conduitOf k = some n ↔ s.conduitOf k = some n) :
    t.naming n = s.naming n := by
  rw [State.naming_eq, State.naming_eq]
  refine total_eq_of_getElem (fun i hi => ?_)
  exact if_congr (h ⟨i, hi⟩) rfl rfl

theorem State.naming_update {h : Handle} (hk : ∀ k, k ≠ h → t.conduitOf k = s.conduitOf k) (n : ConduitNo) :
    t.naming n + namingWeight n (s.conduitOf h) = s.naming n + namingWeight n (t.conduitOf h) := by
  rw [State.naming_eq, State.naming_eq]
  refine total_update (w := fun d : Option Segment => namingWeight n (d.bind Segment.conduit)) h.val h.isLt (fun i hi hne => ?_)
  exact congrArg (namingWeight n) (hk ⟨i, hi⟩ (fun e => hne (congrArg Fin.val e)))

theorem State.naming_eq_zero {n : ConduitNo} : s.naming n = 0 ↔ ∀ h, s.conduitOf h ≠ some n := by
  rw [State.naming_eq, total_eq_zero_iff]
  constructor
  · intro h k hk
    have := h k.val k.isLt
    rw [show s.pool.descriptors[k.val].bind Segment.conduit = s.conduitOf k from rfl, hk] at this
    simp [namingWeight] at this
  · intro h i hi
    exact if_neg (h ⟨i, hi⟩)

/-! #### Sequences in use -/

theorem State.sequenceInUse_eq_false {n : ConduitNo} {q : Half} : s.sequenceInUse n q = false ↔
    ∀ h g q' r, s.segment h = some g → g.stage = .live q' r → g.conduit = some n → q' ≠ q := by
  unfold State.sequenceInUse
  rw [List.any_eq_false]
  constructor
  · intro h k g q' r hg hst hc hq
    apply h (s.segment k) (mem_toList_iff_getElem.2 ⟨k.val, k.isLt, rfl⟩)
    simp [hg, hst, hc, hq]
  · intro h d hd
    obtain ⟨i, hi, rfl⟩ := mem_toList_iff_getElem.1 hd
    cases hg : s.pool.descriptors[i] with
    | none => simp
    | some g =>
      cases hst : g.stage with
      | filling => simp [hst]
      | live q' r =>
        have := h ⟨i, hi⟩ g q' r hg hst
        simpa [hst] using this

/-! #### What keeps the law -/

/-- What a descriptor keeps of its role for the conduit it names: its producer, and whether it is FILLING or LIVE with
its sequence. -/
structure SameRole (g g' : Segment) : Prop where
  producer : g'.producer = g.producer
  filling : g'.stage = .filling → g.stage = .filling
  live : ∀ q r, g'.stage = .live q r → ∃ r', g.stage = .live q r'

theorem SameRole.refl (g : Segment) : SameRole g g := ⟨rfl, id, fun _ r h => ⟨r, h⟩⟩

/-- The sequences stay apart and the fills fresh where no descriptor takes a new conduit or role, and a slot with flow
fields had them with that producer and next sequence, or is named by no descriptor. -/
theorem WindowLaw.sequences (hl : WindowLaw s)
    (hseg : ∀ k g' n, t.segment k = some g' → g'.conduit = some n →
      ∃ g, s.segment k = some g ∧ g.conduit = some n ∧ SameRole g g')
    (hch : ∀ n ch' f', t.channel n = some ch' → ch'.stage.flow? = some f' → s.naming n = 0 ∨
      ∃ ch f, s.channel n = some ch ∧ ch.stage.flow? = some f ∧ ch'.producer = ch.producer ∧
        f'.nextSequence = f.nextSequence) :
    (∀ n h k g g' q r r', t.segment h = some g → t.segment k = some g' → g.conduit = some n →
      g'.conduit = some n → g.stage = .live q r → g'.stage = .live q r' → h = k) ∧
    (∀ n ch f h g, t.channel n = some ch → ch.stage.flow? = some f → t.segment h = some g →
      g.conduit = some n → g.stage = .filling →
      g.producer = ch.producer ∧ t.sequenceInUse n f.nextSequence = false) := by
  constructor
  · intro n h k g g' q r r' hg hg' hn hn' hst hst'
    obtain ⟨x, hx, hxn, hrole⟩ := hseg h g n hg hn
    obtain ⟨x', hx', hxn', hrole'⟩ := hseg k g' n hg' hn'
    obtain ⟨y, hy⟩ := hrole.live q r hst
    obtain ⟨y', hy'⟩ := hrole'.live q r' hst'
    exact hl.sequencesApart n h k x x' q y y' hx hx' hxn hxn' hy hy'
  · intro n ch' f' h g' hc' hf' hg' hn hst
    obtain ⟨g, hg, hgn, hrole⟩ := hseg h g' n hg' hn
    obtain h0 | ⟨ch, f, hc, hf, hp, hq⟩ := hch n ch' f' hc' hf'
    · exact absurd (State.conduitOf_eq_some.2 ⟨g, hg, hgn⟩) (State.naming_eq_zero.1 h0 h)
    · obtain ⟨hprod, hfresh⟩ := hl.fillsAreFresh n ch f h g hc hf hg hgn (hrole.filling hst)
      refine ⟨by rw [hrole.producer, hp, hprod], ?_⟩
      rw [hq]
      rw [State.sequenceInUse_eq_false] at hfresh ⊢
      intro k x' q' r' hx' hst' hxn'
      obtain ⟨x, hx, hxn, hrole⟩ := hseg k x' n hx' hxn'
      obtain ⟨r, hr⟩ := hrole.live q' r' hst'
      exact hfresh k x q' r hx hr hxn

/-- Nothing changes but what the law does not read: payloads, tallies, producers of slots without flow fields. -/
theorem WindowLaw.of_same (hl : WindowLaw s) (hc : ∀ n, t.channel n = s.channel n)
    (hseg : ∀ k, (t.segment k = none ↔ s.segment k = none) ∧ ∀ g', t.segment k = some g' →
      ∃ g, s.segment k = some g ∧ g'.conduit = g.conduit ∧ SameRole g g') : WindowLaw t := by
  have hcond : ∀ k, t.conduitOf k = s.conduitOf k := fun k => by
    unfold State.conduitOf
    obtain ⟨hnone, hsome⟩ := hseg k
    cases hk : t.segment k with
    | none => rw [hnone.1 hk]
    | some g' =>
      obtain ⟨g, hg, hgc, -⟩ := hsome g' hk
      rw [hg]
      exact hgc
  have hnaming : ∀ n, t.naming n = s.naming n := fun n => State.naming_congr (fun k => by rw [hcond k])
  obtain ⟨hapart, hfresh⟩ := hl.sequences (t := t)
    (fun k g' n hg' hn => by
      obtain ⟨g, hg, hgc, hrole⟩ := (hseg k).2 g' hg'
      exact ⟨g, hg, hgc ▸ hn, hrole⟩)
    (fun n ch f hch hf => .inr ⟨ch, f, hc n ▸ hch, hf, rfl, rfl⟩)
  exact
    { unnamed := fun n h => by rw [hnaming]; exact hl.unnamed n (fun ch hch => h ch (hc n ▸ hch))
      counted := fun n ch f hch hf => by rw [hnaming]; exact hl.counted n ch f (hc n ▸ hch) hf
      latched := fun n ch f hch hf => hl.latched n ch f (hc n ▸ hch) hf
      sequencesApart := hapart
      fillsAreFresh := hfresh }

theorem WindowLaw.of_store (hl : WindowLaw s) (hp : t.pool = s.pool) (hc : t.conduits = s.conduits) :
    WindowLaw t := by
  have hseg : ∀ k, t.segment k = s.segment k := fun k => State.segment_ext (by rw [hp]) k
  exact hl.of_same (fun n => State.channel_ext hc n) (fun k => ⟨by rw [hseg],
    fun g' hg' => ⟨g', hseg k ▸ hg', rfl, .refl g'⟩⟩)

/-- One descriptor is freed, its conduit told, or keeps its role. -/
theorem WindowLaw.of_freeing (hl : WindowLaw s) (h : Handle) (hother : ∀ k, k ≠ h → t.segment k = s.segment k)
    (hself : t.segment h = none ∨ ∃ g g', s.segment h = some g ∧ t.segment h = some g' ∧ g'.conduit = g.conduit ∧
      SameRole g g')
    (hch : ∀ n, t.channel n = (s.channel n).map (Channel.mapFlow (fun f =>
      if t.segment h = none ∧ s.conduitOf h = some n then f.afterFreeing 1 else f))) : WindowLaw t := by
  have hcond : ∀ k, k ≠ h → t.conduitOf k = s.conduitOf k := fun k hk => by
    unfold State.conduitOf; rw [hother k hk]
  have hnaming : ∀ n, t.naming n + (if t.segment h = none ∧ s.conduitOf h = some n then 1 else 0) = s.naming n := by
    intro n
    have := State.naming_update hcond n
    obtain hnone | ⟨g, g', hg, hg', hgc, -⟩ := hself
    · have hn : t.conduitOf h = none := by simp [State.conduitOf, hnone]
      rw [hn] at this
      simpa [hnone, namingWeight] using this
    · have hn : t.conduitOf h = s.conduitOf h := by simp [State.conduitOf, hg, hg', hgc]
      rw [hn] at this
      simp [hg']
      omega
  have hback : ∀ n ch', t.channel n = some ch' → ∃ ch, s.channel n = some ch ∧
      ch' = ch.mapFlow (fun f => if t.segment h = none ∧ s.conduitOf h = some n then f.afterFreeing 1 else f) := by
    intro n ch' hc'
    rw [hch] at hc'
    obtain ⟨ch, hc, rfl⟩ := Option.map_eq_some_iff.1 hc'
    exact ⟨ch, hc, rfl⟩
  obtain ⟨hapart, hfresh⟩ := hl.sequences (t := t)
    (fun k g' n hg' hn => by
      by_cases hk : k = h
      · subst hk
        obtain hnone | ⟨g, x, hg, hx, hgc, hrole⟩ := hself
        · rw [hnone] at hg'; cases hg'
        · rw [hx] at hg'
          cases hg'
          exact ⟨g, hg, hgc ▸ hn, hrole⟩
      · exact ⟨g', hother k hk ▸ hg', hn, .refl g'⟩)
    (fun n ch' f' hc' hf' => by
      obtain ⟨ch, hc, rfl⟩ := hback n ch' hc'
      rw [Channel.mapFlow_stage, Stage.flow?_mapFlow, Option.map_eq_some_iff] at hf'
      obtain ⟨f, hf, rfl⟩ := hf'
      refine .inr ⟨ch, f, hc, hf, rfl, ?_⟩
      split <;> rfl)
  have hcount : ∀ n ch' f', t.channel n = some ch' → ch'.stage.flow? = some f' →
      (f'.outstanding = t.naming n ∧ f'.outstanding ≤ f'.window) ∧
      (f'.windowLatch = true → ch'.stage = .opened f' ∧ f'.outstanding = f'.window) := by
    intro n ch' f' hc' hf'
    obtain ⟨ch, hc, rfl⟩ := hback n ch' hc'
    rw [Channel.mapFlow_stage, Stage.flow?_mapFlow, Option.map_eq_some_iff] at hf'
    obtain ⟨f, hf, rfl⟩ := hf'
    obtain ⟨hout, hwin⟩ := hl.counted n ch f hc hf
    have hn := hnaming n
    by_cases hfreed : t.segment h = none ∧ s.conduitOf h = some n
    · rw [if_pos hfreed] at hn ⊢
      have hless : f.outstanding - 1 < f.window := by omega
      have hlatch : (f.afterFreeing 1).windowLatch = false := by
        cases hw : f.windowLatch <;> simp [Flow.afterFreeing, Flow.reopens, hw, hless]
      refine ⟨⟨?_, ?_⟩, fun hw => ?_⟩
      · simp only [Flow.afterFreeing]; omega
      · simp only [Flow.afterFreeing]; omega
      · rw [hlatch] at hw; cases hw
    · rw [if_neg hfreed] at hn ⊢
      refine ⟨⟨by omega, hwin⟩, fun hw => ?_⟩
      obtain ⟨hst, heq⟩ := hl.latched n ch f hc hf hw
      refine ⟨?_, heq⟩
      rw [Channel.mapFlow_stage, hst, Stage.mapFlow, if_neg hfreed]
  exact
    { unnamed := fun n hno => by
        have h0 : s.naming n = 0 := hl.unnamed n (fun ch hc => by
          have := hno _ (by rw [hch, hc]; rfl)
          simpa using this)
        have := hnaming n
        omega
      counted := fun n ch f hc hf => (hcount n ch f hc hf).1
      latched := fun n ch f hc hf => (hcount n ch f hc hf).2
      sequencesApart := hapart
      fillsAreFresh := hfresh }

theorem Segment.claimed_role {c : Claim} {g g' : Segment} (h : g.claimed c = some g') :
    g'.conduit = g.conduit ∧ SameRole g g' := by
  unfold Segment.claimed at h
  split at h
  · cases h; exact ⟨rfl, .refl g⟩
  · rename_i q r hst
    split at h <;> cases h
    exact ⟨rfl, rfl, fun h => by simp at h, fun q' r' h => ⟨r, by
      simp only [SegmentStage.live.injEq] at h
      rw [hst, h.1]⟩⟩

theorem WindowLaw.claim (hl : WindowLaw s) (c : Claim) (h : Handle) : WindowLaw (s.claim c h) := by
  have hself : (s.claim c h).segment h = (s.segment h).bind (Segment.claimed c) := by
    rw [State.claim_segment, if_pos rfl]
  refine hl.of_freeing h (fun k hk => by rw [State.claim_segment, if_neg hk]) ?_ (fun n => ?_)
  · cases hcl : (s.segment h).bind (Segment.claimed c) with
    | none => exact .inl (hself.trans hcl)
    | some g' =>
      obtain ⟨g, hg, hcg⟩ := Option.bind_eq_some_iff.1 hcl
      obtain ⟨h1, h2⟩ := Segment.claimed_role hcg
      exact .inr ⟨g, g', hg, hself.trans hcl, h1, h2⟩
  · rw [State.claim_channel, hself]
    have : ∀ f : Flow, (if (s.segment h).bind (Segment.noticeOf c) = some n then f.afterFreeing 1 else f) =
        if (s.segment h).bind (Segment.claimed c) = none ∧ s.conduitOf h = some n then f.afterFreeing 1 else f := by
      intro f
      refine if_congr ?_ rfl rfl
      cases hg : s.segment h with
      | none => simp [State.conduitOf, hg]
      | some g => cases hcl : g.claimed c <;> simp [State.conduitOf, hg, Segment.noticeOf, hcl]
    simp only [this]

theorem WindowLaw.freeDescriptor (hl : WindowLaw s) (h : Handle) : WindowLaw (s.freeDescriptor h) := by
  have hself : (s.freeDescriptor h).segment h = none := by rw [State.freeDescriptor_segment, if_pos rfl]
  refine hl.of_freeing h (fun k hk => by rw [State.freeDescriptor_segment, if_neg hk]) (.inl hself) (fun n => ?_)
  rw [State.freeDescriptor_channel, hself]
  simp [State.conduitOf]

theorem WindowLaw.teardown (hl : WindowLaw s) (m : ConduitNo) : WindowLaw (s.teardown m) := by
  have hcond : ∀ n k, (s.teardown m).conduitOf k = some n ↔ s.conduitOf k = some n ∧ n ≠ m := by
    intro n k
    unfold State.conduitOf
    rw [State.teardown_segment]
    cases s.segment k with
    | none => simp
    | some g => exact g.detachFrom_conduit_eq_some m n
  have hm : (s.teardown m).naming m = 0 := State.naming_eq_zero.2 (fun k hk => ((hcond m k).1 hk).2 rfl)
  have hother : ∀ n, n ≠ m → (s.teardown m).naming n = s.naming n := fun n hn =>
    State.naming_congr (fun k => by rw [hcond]; exact and_iff_left hn)
  have hch : ∀ n ch, (s.teardown m).channel n = some ch → n ≠ m ∧ s.channel n = some ch := by
    intro n ch hc
    rw [State.teardown_channel] at hc
    split at hc
    · cases hc
    · rename_i hn; exact ⟨hn, hc⟩
  obtain ⟨hapart, hfresh⟩ := hl.sequences (t := s.teardown m)
    (fun k g' n hg' hn => by
      rw [State.teardown_segment, Option.map_eq_some_iff] at hg'
      obtain ⟨g, hg, rfl⟩ := hg'
      exact ⟨g, hg, ((g.detachFrom_conduit_eq_some m n).1 hn).1, by simp, by simp, fun q r h => ⟨r, by simpa using h⟩⟩)
    (fun n ch f hc hf => .inr ⟨ch, f, (hch n ch hc).2, hf, rfl, rfl⟩)
  exact
    { unnamed := fun n hno => by
        by_cases hn : n = m
        · rw [hn, hm]
        · rw [hother n hn]
          exact hl.unnamed n (fun ch hc => hno ch (by rw [State.teardown_channel, if_neg hn]; exact hc))
      counted := fun n ch f hc hf => by
        obtain ⟨hn, hc⟩ := hch n ch hc
        rw [hother n hn]
        exact hl.counted n ch f hc hf
      latched := fun n ch f hc hf => hl.latched n ch f (hch n ch hc).2 hf
      sequencesApart := hapart
      fillsAreFresh := hfresh }

/-- A slot's use is replaced by one that counts the same descriptors. -/
theorem WindowLaw.setChannel (hl : WindowLaw s) {n : ConduitNo} {ch' : Option Channel}
    (hflow : ∀ c f, ch' = some c → c.stage.flow? = some f →
      (f.outstanding = s.naming n ∧ f.outstanding ≤ f.window) ∧
      (f.windowLatch = true → c.stage = .opened f ∧ f.outstanding = f.window) ∧
      (s.naming n = 0 ∨ ∃ ch x, s.channel n = some ch ∧ ch.stage.flow? = some x ∧ c.producer = ch.producer ∧
        f.nextSequence = x.nextSequence))
    (hnone : (∀ c, ch' = some c → c.stage.flow? = none) → s.naming n = 0) :
    WindowLaw (s.setChannel n ch') := by
  obtain ⟨hapart, hfresh⟩ := hl.sequences (t := s.setChannel n ch')
    (fun k g' n hg' hn => ⟨g', hg', hn, .refl g'⟩)
    (fun m c f hc hf => by
      rw [State.setChannel_channel] at hc
      split at hc
      · rename_i e; subst e; exact (hflow c f hc hf).2.2
      · exact .inr ⟨c, f, hc, hf, rfl, rfl⟩)
  have hnaming : ∀ m, (s.setChannel n ch').naming m = s.naming m := fun _ => rfl
  exact
    { unnamed := fun m hno => by
        rw [hnaming]
        by_cases hm : m = n
        · subst hm
          exact hnone (fun c hc => hno c (by rw [State.setChannel_channel, if_pos rfl]; exact hc))
        · exact hl.unnamed m (fun c hc => hno c (by rw [State.setChannel_channel, if_neg hm]; exact hc))
      counted := fun m c f hc hf => by
        rw [State.setChannel_channel] at hc
        split at hc
        · rename_i e; subst e; exact (hflow c f hc hf).1
        · exact hl.counted m c f hc hf
      latched := fun m c f hc hf => by
        rw [State.setChannel_channel] at hc
        split at hc
        · rename_i e; subst e; exact (hflow c f hc hf).2.1
        · exact hl.latched m c f hc hf
      sequencesApart := hapart
      fillsAreFresh := hfresh }

/-- A slot in use whose stage moves as the rules let it. -/
theorem WindowLaw.use (hl : WindowLaw s) {n : ConduitNo} {ch ch' : Channel} (hc : s.channel n = some ch)
    (hp : ch'.producer = ch.producer) (hs : StageMove ch.stage ch'.stage) : WindowLaw (s.setChannel n (some ch')) := by
  generalize hst : ch.stage = st at hs
  generalize hst' : ch'.stage = st' at hs
  have unnamed : st.flow? = none → s.naming n = 0 := fun h => hl.unnamed n (fun c hx => by
    rw [hc] at hx; cases hx; rw [hst]; exact h)
  have flows : ∀ f, st.flow? = some f → ch.stage.flow? = some f := fun f h => by rw [hst]; exact h
  cases hs with
  | same st =>
    refine hl.setChannel (fun c f hx hf => ?_) (fun h => unnamed (by rw [← hst']; exact h ch' rfl))
    cases hx
    rw [hst'] at hf
    refine ⟨hl.counted n ch f hc (flows f hf), fun hw => ?_, .inr ⟨ch, f, hc, flows f hf, hp, rfl⟩⟩
    obtain ⟨ho, he⟩ := hl.latched n ch f hc (flows f hf) hw
    exact ⟨by rw [hst', ← hst, ho], he⟩
  | @drain st f0 hf0 =>
    refine hl.setChannel (fun c f hx hf => ?_) (fun h => ?_)
    · cases hx
      rw [hst'] at hf
      cases hf
      exact ⟨hl.counted n ch f0 hc (flows f0 hf0), fun hw => by simp at hw, .inr ⟨ch, f0, hc, flows f0 hf0, hp, rfl⟩⟩
    · have := h ch' rfl
      rw [hst'] at this
      cases this
  | @opening d f0 hout hlatch =>
    refine hl.setChannel (fun c f hx hf => ?_) (fun _ => unnamed rfl)
    cases hx
    rw [hst'] at hf
    cases hf
    exact ⟨⟨by rw [hout, unnamed rfl], by omega⟩, fun hw => absurd (hlatch.symm.trans hw) (by simp),
      .inl (unnamed rfl)⟩
  | @latch f0 hfull =>
    have hf0 := flows f0 rfl
    refine hl.setChannel (fun c f hx hf => ?_) (fun h => ?_)
    · cases hx
      rw [hst'] at hf
      cases hf
      have hcount := hl.counted n ch f0 hc hf0
      exact ⟨hcount, fun _ => ⟨hst', Nat.le_antisymm hcount.2 hfull⟩, .inr ⟨ch, f0, hc, hf0, hp, rfl⟩⟩
    · have := h ch' rfl
      rw [hst'] at this
      cases this

/-- The law, where every descriptor is FREE and so is every slot. -/
theorem windowLaw_of_free (hseg : ∀ h, t.segment h = none) (hch : ∀ n, t.channel n = none) : WindowLaw t :=
  { unnamed := fun n _ => State.naming_eq_zero.2 (fun h hn => by simp [State.conduitOf, hseg] at hn)
    counted := fun n ch f hc => by rw [hch] at hc; cases hc
    latched := fun n ch f hc => by rw [hch] at hc; cases hc
    sequencesApart := fun n h k g g' q r r' hg => by rw [hseg] at hg; cases hg
    fillsAreFresh := fun n ch f h g hc => by rw [hch] at hc; cases hc }

theorem segment_of_initial (hp : t.pool = Pool.initial) (h : Handle) : t.segment h = none := by
  simp [State.segment, hp, Pool.initial]

theorem channel_of_initial (hc : t.conduits = initialConduits) (n : ConduitNo) : t.channel n = none := by
  simp [State.channel, State.conduit, hc, initialConduits]

theorem Act.keeps_windows (h : Act s t) (hl : WindowLaw s) : WindowLaw t := by
  cases h with
  | store h => exact hl.of_store h.pool h.conduits
  | claim c h => exact hl.claim c h
  | free h => exact hl.freeDescriptor h
  | teardown n => exact hl.teardown n
  | use hc hp hs _ => exact hl.use hc hp hs
  | @offer n ch d generation hc hs _ _ =>
    have hn : s.naming n = 0 := hl.unnamed n (fun c h => by rw [hc] at h; cases h)
    have hset : WindowLaw (s.setChannel n (some ch)) :=
      hl.setChannel (fun c f hx hf => by cases hx; rw [hs] at hf; cases hf) (fun _ => hn)
    refine hset.of_same (fun m => ?_) (fun k => ⟨Iff.rfl, fun g' hg' => ⟨g', hg', rfl, .refl g'⟩⟩)
    rw [State.setChannel_channel]
    simp only [State.channel, State.conduit, Fin.getElem_fin, Vector.getElem_set]
    by_cases hm : m = n
    · subst hm; simp
    · have : ¬ n.val = m.val := fun e => hm (Fin.ext e.symm)
      simp [hm, this]
  | adopt hp hc _ => exact hl.of_store hp hc
  | powerOn hp hc _ => exact windowLaw_of_free (segment_of_initial hp) (channel_of_initial hc)

/-! #### Fills and deliveries -/

/-- A fill in flight is FILLING, and one producer has one fill (R162). -/
structure FillsKnown (s : State) : Prop where
  filling : ∀ p h g, s.fillHandle? p = some h → s.segment h = some g → g.stage = .filling
  apart : ∀ h k g g', s.segment h = some g → s.segment k = some g' → g.stage = .filling → g'.stage = .filling →
    g.producer = g'.producer → h = k

theorem ReferenceLaw.fillsKnown (hl : ReferenceLaw s) : FillsKnown s where
  filling p h g hf hg := by
    obtain ⟨g', hg', hst, -⟩ := hl.filled p h hf
    rw [hg] at hg'
    cases hg'
    exact hst
  apart h k g g' hg hg' hst hst' hp := by
    have h1 := hl.filling h g hg hst
    have h2 := hl.filling k g' hg' hst'
    rw [hp, h2] at h1
    exact (Option.some.inj h1).symm

theorem State.fillHandle?_congr {p : Port} (h : t.port p = s.port p) : t.fillHandle? p = s.fillHandle? p := by
  unfold State.fillHandle?; rw [h]

theorem State.transferHandle?_congr {p : Port} (h : t.port p = s.port p) :
    t.transferHandle? p = s.transferHandle? p := by
  unfold State.transferHandle?; rw [h]

/-- Payload bytes leave every port's fill and transfer as they are. -/
theorem State.receivePayload_handles (s : State) (p : Port) (bytes : List Byte) (q : Port) :
    (s.receivePayload p bytes).fillHandle? q = s.fillHandle? q ∧
      (s.receivePayload p bytes).transferHandle? q = s.transferHandle? q := by
  cases hf : s.fillHandle? p with
  | none => rw [State.receivePayload_of_no_fill bytes hf]; exact ⟨rfl, rfl⟩
  | some h =>
    obtain ⟨x, hx, hph, ho⟩ := State.transaction_of_fill hf
    rw [State.receivePayload_of_fill bytes hf hx]
    by_cases hq : q = p
    · subst hq
      simp [State.fillHandle?, State.transferHandle?, hx]
    · have : ((s.setPort p { s.port p with
          transaction := some { x with byteCount := x.byteCount + bytes.length } }).setSegment h
          ((s.segment h).map (Segment.stored bytes))).port q = s.port q := by
        rw [State.setSegment_port, State.setPort_port_ne _ _ hq]
      exact ⟨State.fillHandle?_congr this, State.transferHandle?_congr this⟩

/-- A descriptor after payload bytes was there before, and has kept all but its payload. -/
theorem State.receivePayload_segment_some {p : Port} {bytes : List Byte} {k : Handle} {g' : Segment}
    (h : (s.receivePayload p bytes).segment k = some g') :
    ∃ g, s.segment k = some g ∧ g'.conduit = g.conduit ∧ g'.producer = g.producer ∧ g'.stage = g.stage := by
  rw [State.receivePayload_segment] at h
  split at h
  · obtain ⟨g, hg, rfl⟩ := Option.map_eq_some_iff.1 h
    exact ⟨g, hg, rfl, rfl, rfl⟩
  · exact ⟨g', h, rfl, rfl, rfl⟩

theorem Received.fillsKnown (hr : Received s t) (hk : FillsKnown s) : FillsKnown t := by
  obtain rfl | ⟨p, bytes, rfl⟩ := hr
  · exact hk
  · constructor
    · intro q h g' hf hg'
      obtain ⟨g, hg, -, -, hst⟩ := State.receivePayload_segment_some hg'
      rw [hst]
      exact hk.filling q h g ((s.receivePayload_handles p bytes q).1 ▸ hf) hg
    · intro h k g g' hg hg' hst hst' hp
      obtain ⟨x, hx, -, hxp, hxs⟩ := State.receivePayload_segment_some hg
      obtain ⟨x', hx', -, hxp', hxs'⟩ := State.receivePayload_segment_some hg'
      exact hk.apart h k x x' hx hx' (hxs ▸ hst) (hxs' ▸ hst') (by rw [← hxp, ← hxp', hp])

theorem Received.keeps_windows (hr : Received s t) (hl : WindowLaw s) : WindowLaw t := by
  obtain rfl | ⟨p, bytes, rfl⟩ := hr
  · exact hl
  · refine hl.of_same (fun n => s.receivePayload_channel p bytes n) (fun k => ⟨?_, fun g' hg' => ?_⟩)
    · rw [State.receivePayload_segment]; split <;> simp
    · obtain ⟨g, hg, h1, h2, h3⟩ := State.receivePayload_segment_some hg'
      exact ⟨g, hg, h1, h2, fun h => h3 ▸ h, fun q r h => ⟨r, h3 ▸ h⟩⟩

theorem startFill_windows {p : Port} {n : ConduitNo} {ch : Channel} {f : Flow} {h : Handle} {length : Nat}
    (hl : WindowLaw s) (hfree : s.segment h = none) (hc : s.channel n = some ch) (hp : ch.producer = p)
    (hst : ch.stage = .opened f) (hroom : f.outstanding < f.window) (hseq : s.sequenceInUse n f.nextSequence = false) :
    WindowLaw (s.startFill h p n length) := by
  have hf : ch.stage.flow? = some f := by rw [hst]; rfl
  have hcond : ∀ k, k ≠ h → (s.startFill h p n length).conduitOf k = s.conduitOf k := fun k hk => by
    unfold State.conduitOf; rw [State.startFill_segment, if_neg hk]
  have hself : (s.startFill h p n length).conduitOf h = some n := by
    unfold State.conduitOf; rw [State.startFill_segment, if_pos rfl]; rfl
  have hold : s.conduitOf h = none := by simp [State.conduitOf, hfree]
  have hnaming : ∀ m, (s.startFill h p n length).naming m = s.naming m + if m = n then 1 else 0 := fun m => by
    have := State.naming_update hcond m
    rw [hself, hold] at this
    simpa [namingWeight, eq_comm] using this
  have hch : ∀ m c, (s.startFill h p n length).channel m = some c →
      (m = n ∧ c = { ch with stage := .opened { f with outstanding := f.outstanding + 1 } }) ∨
      (m ≠ n ∧ s.channel m = some c) := fun m c hm => by
    rw [State.startFill_channel, hc] at hm
    split at hm
    · rename_i e
      refine .inl ⟨e, ?_⟩
      rw [Option.map_some, Option.some.injEq] at hm
      rw [← hm, Channel.mapFlow, hst]
      rfl
    · rename_i hne; exact .inr ⟨hne, hm⟩
  have hlive : ∀ k g q r, (s.startFill h p n length).segment k = some g → g.stage = .live q r → s.segment k = some g :=
    fun k g q r hg hq => by
      rw [State.startFill_segment] at hg
      split at hg
      · cases hg; cases hq
      · exact hg
  have hfresh : ∀ m q, s.sequenceInUse m q = false → (s.startFill h p n length).sequenceInUse m q = false :=
    fun m q hq => by
      rw [State.sequenceInUse_eq_false] at hq ⊢
      exact fun k g q' r hg hs => hq k g q' r (hlive k g q' r hg hs) hs
  exact
    { unnamed := fun m hno => by
        rw [hnaming]
        by_cases hm : m = n
        · subst hm
          have := hno _ (by rw [State.startFill_channel, if_pos rfl, hc]; rfl)
          simp [hst, Stage.mapFlow, Stage.flow?] at this
        · rw [if_neg hm]
          exact hl.unnamed m (fun c hx => hno c (by rw [State.startFill_channel, if_neg hm]; exact hx))
      counted := fun m c x hm hx => by
        rw [hnaming]
        obtain ⟨rfl, rfl⟩ | ⟨hne, hm⟩ := hch m c hm
        · cases hx
          have := hl.counted m ch f hc hf
          simp
          omega
        · rw [if_neg hne]; exact hl.counted m c x hm hx
      latched := fun m c x hm hx hw => by
        obtain ⟨rfl, rfl⟩ | ⟨hne, hm⟩ := hch m c hm
        · cases hx
          have := (hl.latched m ch f hc hf hw).2
          omega
        · exact hl.latched m c x hm hx hw
      sequencesApart := fun m h k g g' q r r' hg hg' hm hm' hs hs' =>
        hl.sequencesApart m h k g g' q r r' (hlive h g q r hg hs) (hlive k g' q r' hg' hs') hm hm' hs hs'
      fillsAreFresh := fun m c x k g hm hx hg hgm hs => by
        rw [State.startFill_segment] at hg
        obtain ⟨rfl, rfl⟩ | ⟨hne, hm⟩ := hch m c hm
        · cases hx
          split at hg
          · cases hg; exact ⟨hp.symm, hfresh _ _ hseq⟩
          · obtain ⟨h1, h2⟩ := hl.fillsAreFresh m ch f k g hc hf hg hgm hs
            exact ⟨h1, hfresh _ _ h2⟩
        · split at hg
          · cases hg; exact absurd (Option.some.inj hgm).symm hne
          · obtain ⟨h1, h2⟩ := hl.fillsAreFresh m c x k g hm hx hg hgm hs
            exact ⟨h1, hfresh _ _ h2⟩ }

theorem deliver_windows {h : Handle} {g : Segment} {n : ConduitNo} {ch : Channel} {f : Flow} (hl : WindowLaw s)
    (hk : FillsKnown s) (hg : s.segment h = some g) (hst : g.stage = .filling) (hn : g.conduit = some n)
    (hc : s.channel n = some ch) (hf : ch.stage.flow? = some f) : WindowLaw (s.deliver h g n ch f) := by
  have hcond : ∀ k, (s.deliver h g n ch f).conduitOf k = s.conduitOf k := fun k => by
    unfold State.conduitOf
    rw [State.deliver_segment]
    split
    · rename_i e; subst e; rw [hg]; rfl
    · rfl
  have hnaming : ∀ m, (s.deliver h g n ch f).naming m = s.naming m := fun m =>
    State.naming_congr (fun k => by rw [hcond])
  obtain ⟨hprod, hseq⟩ := hl.fillsAreFresh n ch f h g hc hf hg hn hst
  rw [State.sequenceInUse_eq_false] at hseq
  have hch : ∀ m c x, (s.deliver h g n ch f).channel m = some c → c.stage.flow? = some x →
      (m = n ∧ c.stage = ch.stage.mapFlow (fun f => { f with nextSequence := f.nextSequence + 1 }) ∧
        c.producer = ch.producer ∧ x = { f with nextSequence := f.nextSequence + 1 }) ∨
      (m ≠ n ∧ s.channel m = some c) := fun m c x hm hx => by
    rw [State.deliver_channel] at hm
    split at hm
    · rename_i e
      cases hm
      simp only [Stage.flow?_mapFlow, hf, Option.map_some, Option.some.injEq] at hx
      exact .inl ⟨e, rfl, rfl, hx.symm⟩
    · rename_i hne; exact .inr ⟨hne, hm⟩
  have hlive : ∀ k x q r, (s.deliver h g n ch f).segment k = some x → x.stage = .live q r →
      (k = h ∧ q = f.nextSequence ∧ x.conduit = some n) ∨ (k ≠ h ∧ s.segment k = some x) := fun k x q r hx hs => by
    rw [State.deliver_segment] at hx
    split at hx
    · rename_i e
      cases hx
      simp only [SegmentStage.live.injEq] at hs
      exact .inl ⟨e, hs.1.symm, hn⟩
    · rename_i e; exact .inr ⟨e, hx⟩
  exact
    { unnamed := fun m hno => by
        rw [hnaming]
        refine hl.unnamed m (fun c hx => ?_)
        by_cases hm : m = n
        · subst hm
          have := hno _ (by rw [State.deliver_channel, if_pos rfl])
          simp [hf] at this
        · exact hno c (by rw [State.deliver_channel, if_neg hm]; exact hx)
      counted := fun m c x hm hx => by
        rw [hnaming]
        obtain ⟨rfl, -, -, rfl⟩ | ⟨-, hm⟩ := hch m c x hm hx
        · exact hl.counted m ch f hc hf
        · exact hl.counted m c x hm hx
      latched := fun m c x hm hx hw => by
        obtain ⟨rfl, hcs, -, rfl⟩ | ⟨-, hm⟩ := hch m c x hm hx
        · obtain ⟨ho, he⟩ := hl.latched m ch f hc hf hw
          exact ⟨by rw [hcs, ho]; rfl, he⟩
        · exact hl.latched m c x hm hx hw
      sequencesApart := fun m j k x x' q r r' hx hx' hm hm' hs hs' => by
        obtain ⟨rfl, hq, hxn⟩ | ⟨-, old⟩ := hlive j x q r hx hs
        · obtain ⟨rfl, -, -⟩ | ⟨-, old'⟩ := hlive k x' q r' hx' hs'
          · rfl
          · have e : m = n := Option.some.inj (hm.symm.trans hxn)
            exact absurd hq (hseq k x' q r' old' hs' (e ▸ hm'))
        · obtain ⟨rfl, hq, hxn⟩ | ⟨-, old'⟩ := hlive k x' q r' hx' hs'
          · have e : m = n := Option.some.inj (hm'.symm.trans hxn)
            exact absurd hq (hseq j x q r old hs (e ▸ hm))
          · exact hl.sequencesApart m j k x x' q r r' old old' hm hm' hs hs'
      fillsAreFresh := fun m c x k y hm hx hy hym hys => by
        have hkh : k ≠ h := fun e => by
          rw [State.deliver_segment, if_pos e] at hy; cases hy; cases hys
        rw [State.deliver_segment, if_neg hkh] at hy
        obtain ⟨rfl, -, -, -⟩ | ⟨hne, hm⟩ := hch m c x hm hx
        · have := (hl.fillsAreFresh m ch f k y hc hf hy hym hys).1
          exact absurd (hk.apart k h y g hy hg hys hst (by rw [this, hprod])) hkh
        · obtain ⟨h1, h2⟩ := hl.fillsAreFresh m c x k y hm hx hy hym hys
          refine ⟨h1, ?_⟩
          rw [State.sequenceInUse_eq_false] at h2 ⊢
          intro j z q r hz hs hzm
          obtain ⟨-, -, hzn⟩ | ⟨-, hz⟩ := hlive j z q r hz hs
          · exact absurd (Option.some.inj (hzm.symm.trans hzn)) hne
          · exact h2 j z q r hz hs hzm }

theorem takeHead_windows {p : Port} {n : ConduitNo} {ch : Channel} {h : Handle} (hl : WindowLaw s)
    (hc : s.channel n = some ch) : WindowLaw (s.takeHead p n ch h) := by
  have moved : ∀ f, WindowLaw (s.updateEndpoint n p f) := fun f => by
    rw [State.updateEndpoint, s.updateChannel_of_some n hc]
    exact hl.use (ch' := ch.updateEndpoint p f) hc rfl (.same _)
  exact (State.drainCheck_acts _ n).keeps (fun _ _ hl ha => ha.keeps_windows hl) ((moved _).claim .take h)

theorem Done.keeps_windows (hd : Done s t) (ha : AccountingLaw s) (hk : FillsKnown s) (hl : WindowLaw s) :
    WindowLaw t := by
  obtain hacts | ⟨p, n, ch, f, h, rest, len, -, hc, hp, hst, hroom, hseq, -, hf, hs⟩ |
    ⟨p, h, g, n, ch, f, hfill, hg, ht, hs⟩ | ⟨p, n, ch, e, h, rest, hc, -, -, -, hs⟩ := hd
  · exact hacts.keeps (fun _ _ hl ha => ha.keeps_windows hl) hl
  · have hfree : s.segment h = none := (ha.freeListed h).1 (by simp [hf])
    exact (startFill_windows hl hfree hc hp hst hroom hseq).of_store hs.pool hs.conduits
  · obtain ⟨hn, hc, hflow, -⟩ := State.deliveryTarget_eq_some ht
    exact (deliver_windows hl hk hg (hk.filling p h g hfill hg) hn hc hflow).of_store hs.pool hs.conduits
  · exact (takeHead_windows hl hc).of_store hs.pool hs.conduits

/-- The laws read the state but for the queue of rows that wait. -/
theorem ReferenceLaw.of_pending {rest : List Instr} (h : ReferenceLaw s) : ReferenceLaw { s with pending := rest } :=
  ⟨h.live, h.others, h.queued, h.held, h.filling, h.filled⟩

end Windows

end Sys2Proof.Machine

open Sys2Proof Sys2Proof.Machine in
/-- Settles O13: every elementary act keeps the windows; a POST takes a next sequence that no LIVE descriptor carries,
and its delivery is the only fill of its conduit. -/
theorem everyStepKeepsTheWindowLaw : Obligations.EveryStepKeepsTheWindowLaw := by
  intro s t ha hr hl hstep
  obtain ⟨-, rfl⟩ | ⟨i, rest, -, hi⟩ := step_cases hstep
  · exact s.referencePeriod_acts.keeps (fun _ _ hl ha => ha.keeps_windows hl) hl
  · obtain ⟨s1, hrec, hd⟩ := exec_done hi
    have hs : SameStore s { s with pending := rest } := ⟨rfl, rfl, rfl⟩
    have hr' : ReferenceLaw { s with pending := rest } := hr.of_pending
    exact hd.keeps_windows (hrec.keeps_accounts (hs.books.law ha)) (hrec.fillsKnown hr'.fillsKnown)
      (hrec.keeps_windows (hl.of_store hs.pool hs.conduits))


/-! ### The part at power-on -/

namespace Sys2Proof.Machine

theorem reset_segment (h : Handle) : State.reset.segment h = none := segment_of_initial rfl h

theorem reset_channel (n : ConduitNo) : State.reset.channel n = none := channel_of_initial rfl n

theorem reset_port (p : Port) : State.reset.port p = PortController.initial true := PerPort.get_const _ p

theorem reset_events (p : Port) : State.reset.events.get p = { records := [], counter := 0 } := PerPort.get_const _ p

theorem reset_pair (p q : Port) : State.reset.attention.pair p q = .none := by
  simp [State.reset, Attention.pair, Attention.initial]

theorem reset_handles (p : Port) : State.reset.fillHandle? p = none ∧ State.reset.transferHandle? p = none := by
  simp [State.fillHandle?, State.transferHandle?, reset_port, PortController.initial]

/-- Without a proposal, and with every slot FREE, no deadline is placed. -/
theorem placedDeadlines_of_free {s : State} (hp : s.partition.proposal = none) (hc : ∀ n, s.channel n = none) :
    s.placedDeadlines = [] := by
  simp [State.placedDeadlines, State.slotDeadlines, hp, hc]

/-- With every slot FREE there are no endpoints. -/
theorem endpoints_of_free {s : State} (hc : ∀ n, s.channel n = none) : s.endpoints = [] := by
  unfold State.endpoints
  rw [List.flatMap_eq_nil_iff]
  intro c hm
  obtain ⟨i, hi, rfl⟩ := mem_toList_iff_getElem.1 hm
  rw [show s.conduits[i].channel = none from hc ⟨i, hi⟩]

/-- With every descriptor and every slot FREE, and no fill or transfer in flight, nothing refers to anything. -/
theorem referenceLaw_of_free {s : State} (hseg : ∀ h, s.segment h = none) (hc : ∀ n, s.channel n = none)
    (hports : ∀ p, s.fillHandle? p = none ∧ s.transferHandle? p = none) : ReferenceLaw s where
  live h g q r hg := by rw [hseg] at hg; cases hg
  others h _ := by
    simp [State.queueEntries, State.holdEntries, State.transfersOf, endpoints_of_free hc, hports]
  queued n ch e h hn := by rw [hc] at hn; cases hn
  held n ch e d hn := by rw [hc] at hn; cases hn
  filling h g hg := by rw [hseg] at hg; cases hg
  filled p h hf := by rw [(hports p).1] at hf; cases hf

theorem reset_portLaw : PortLaw State.reset where
  heldByReset p _ := by rw [reset_port]; rfl
  heldBeforeOperation _ p := by rw [reset_port]; rfl
  heldOnlyByReset h := by cases h
  silentWhileIgnored p _ := by rw [reset_port]; rfl
  rotationRests p _ := by rw [reset_port]; rfl
  idleWhileDetached p _ := reset_handles p
  readEnds p _ _ := by rw [reset_port]; rfl
  fillsArePosts p x hx := by rw [reset_port] at hx; cases hx

theorem reset_eventLaw : EventLaw State.reset where
  queues p := by
    rw [reset_events]
    exact ⟨by simp, by simp, by simp, by simp, fun i h => by simp at h⟩
  unattached p _ := by rw [reset_events]

theorem reset_attentionLaw : AttentionLaw State.reset := by
  have hq : ∀ t, State.reset.attention.queues.get t = [] := fun t => PerPort.get_const _ t
  exact
    { oneEach := fun t => by simp [hq]
      pendingIsQueued := fun p t => by simp [hq, reset_pair]
      vectors := fun t => by simp [hq]
      noneWithItself := fun p => reset_pair p p
      unattached := fun p _ q => ⟨reset_pair p q, reset_pair q p⟩ }

theorem reset_partitionLaw : PartitionLaw State.reset where
  activeSums := by decide
  proposal pr h := by cases h

/-- A byte in range names its conduit (R27). -/
theorem conduitOf?_of_toNat {b : Byte} {n : ConduitNo} (h : b.toNat = n.val) : conduitOf? b = some n := by
  unfold conduitOf?
  rw [dif_pos (h ▸ n.isLt)]
  exact congrArg some (Fin.ext h)

end Sys2Proof.Machine

section PowerOnClaimsAndQueries

open Sys2Proof Sys2Proof.Machine

/-- Settles O4: the reset state read field by field. -/
theorem powerOnValuesOfEveryBlock : Obligations.PowerOnValuesOfEveryBlock := by
  refine ⟨rfl, reset_segment, by decide +kernel, fun p => ⟨?_, ?_, ?_⟩, fun n => ?_, reset_events, fun p => ⟨?_, ?_⟩,
    fun p => ?_, rfl, rfl, rfl, fun p => ?_, rfl, rfl, placedDeadlines_of_free rfl reset_channel⟩
  · exact PerPort.get_const _ p
  · exact PerPort.get_const _ p
  · rw [chargedConduits_eq]
    exact total_eq_zero_iff.2 (fun i hi => by
      rw [show State.reset.conduits[i].channel = none from reset_channel ⟨i, hi⟩]; rfl)
  · simp [State.conduit, State.reset, initialConduits]
  · exact PerPort.get_const _ p
  · exact reset_pair p
  · exact PerPort.get_const _ p
  · rw [reset_port]
    exact ⟨rfl, rfl, rfl, rfl⟩

/-- Settles O6: every descriptor and every slot is FREE, and no port is ATTACHED. -/
theorem lawsHoldAtPowerOn : Obligations.LawsHoldAtPowerOn := by
  have hdeadlines : State.reset.placedDeadlines = [] := placedDeadlines_of_free rfl reset_channel
  refine ⟨reset_portLaw, reset_eventLaw, reset_attentionLaw, reset_partitionLaw, powerOn_law rfl rfl rfl,
    fun n ch hc => ?_, windowLaw_of_free reset_segment reset_channel,
    referenceLaw_of_free reset_segment reset_channel reset_handles, fun d hd => ?_, ⟨?_, ?_⟩, fun n ch hc => ?_,
    fun d hd => ?_⟩
  · rw [reset_channel] at hc; cases hc
  · rw [hdeadlines] at hd; cases hd
  · intro h g q r hg; rw [reset_segment] at hg; cases hg
  · intro p h g x hf; rw [(reset_handles p).1] at hf; cases hf
  · rw [reset_channel] at hc; cases hc
  · rw [hdeadlines] at hd; cases hd

/-- Settles O23: a claim is its change of the pool and the notice of the freeing, and a notice counts once. -/
theorem claimsFreeAtZeroAndReopenTheWindow : Obligations.ClaimsFreeAtZeroAndReopenTheWindow := by
  refine ⟨fun s c h g q r hg hst => ⟨fun hne => ?_, fun hzero => ?_, rfl, ?_, rfl, ?_, ?_⟩,
    fun s n ch f hc hf => ⟨fun hw hless => ?_, fun hno => ?_⟩⟩
  · have hcl : g.claimed c = some { g with stage := .live q (c.change r) } := by
      simp only [Segment.claimed, hst, Refs.total]
      exact if_neg hne
    rw [State.claim_eq, hg, Option.bind_some, Segment.noticeOf, hcl, if_neg (by simp),
      Pool.claimed_of_kept h hg hcl]
    rfl
  · have hcl : g.claimed c = none := by simp [Segment.claimed, hst, Refs.total, hzero]
    rw [State.claim_eq, hg, Option.bind_some, Segment.noticeOf, hcl, if_pos rfl, Pool.claimed_of_freed h hg hcl]
    cases g.conduit with
    | none => rfl
    | some n => exact (State.freeingNotice_eq _ n).symm
  · simp [Claim.change]
  · simp [Claim.change]
  · simp [Claim.change]
  · have hr : f.reopens 1 = true := by simp [Flow.reopens, hw, hless]
    rw [State.freeingNotice_eq, s.noticed_of_flow n hc hf]
    simp only [Flow.afterFreeing, hr, hw]
    simp [State.tell]
    rfl
  · have hr : f.reopens 1 = false := by
      cases hw : f.windowLatch <;> simp [hw] at hno <;> simp [Flow.reopens, hw, hno]
    rw [State.freeingNotice_eq, s.noticed_of_flow n hc hf]
    simp [Flow.afterFreeing, hr, State.tell_nil]
    rfl

/-- Settles O36: the queries answer with their record and the state as it is, which is then replied. -/
theorem queriesReadAndChangeNothing : Obligations.QueriesReadAndChangeNothing := by
  intro s p shown b ha hstart
  have passes : ∀ c ∈ [Command.conduitInfo, .readPartition, .poolInfo, .segmentInfo], admission c shown = none := by
    intro c hc
    cases shown with
    | starting => exact absurd rfl hstart
    | detached => fin_cases hc <;> rfl
    | attached => fin_cases hc <;> rfl
  have reply : ∀ c ∈ [Command.conduitInfo, .readPartition, .poolInfo, .segmentInfo], ∀ (args : List Byte)
      (named : Option ConduitNo) (owner : State → Answer) (fields : List Byte),
      owner s = { state := s, outcome := .done, fields } →
      s.transact p c args named owner = s.replied p c .done named none fields := by
    intro c hc args named owner fields ho
    rw [State.transact_eq_replied ha (a := { state := s, outcome := .done, fields })
      (by rw [passes c hc]; exact ho) rfl (fun _ => by fin_cases hc <;> simp)]
    rfl
  refine ⟨fun n hn => ?_, ?_, ?_, fun h hh => ?_⟩
  · have hname := conduitOf?_of_toNat hn
    have ho : conduitInfoAnswer b s = { state := s, outcome := .done, fields := s.conduitRecord n } := by
      unfold conduitInfoAnswer
      rw [hname]
    exact congrArg _ ((reply _ (by simp) _ _ _ _ ho).trans (by rw [hname]))
  · exact congrArg _ (reply _ (by simp) _ _ _ _ rfl)
  · exact congrArg _ (reply _ (by simp) _ _ _ _ rfl)
  · have hname : handleOf b = h := Fin.ext hh
    exact congrArg _ ((reply _ (by simp) _ _ _ _ rfl).trans (by rw [hname]))

end PowerOnClaimsAndQueries


/-! ### The commands of the delivery engine, at their acceptance -/

namespace Sys2Proof.Machine

section Commands

variable {s : State} {p : Port} {b : Byte} {n : ConduitNo} {ch : Channel} {e : Endpoint}

/-! #### The checks in front -/

theorem State.onConduit_eq {k : ConduitNo → Channel → Answer} (hb : b.toNat = n.val) (hc : s.channel n = some ch) :
    s.onConduit b k = k n ch := by
  unfold State.onConduit
  simp only [conduitOf?_of_toNat hb, hc]

theorem Channel.endpoint?_eq_none : ch.endpoint? p = none ↔ p ∉ ch.memberPorts := by
  simp [Channel.endpoint?, Channel.memberPorts, List.find?_eq_none]

theorem Channel.endpoint?_some (he : ch.endpoint? p = some e) : e ∈ ch.members ∧ e.port = p :=
  ⟨List.mem_of_find?_eq_some he, by simpa using List.find?_some he⟩

/-- With members on distinct ports, a port has one endpoint. -/
theorem Channel.endpoint_unique (hn : ch.memberPorts.Nodup) {x y : Endpoint} (hx : x ∈ ch.members)
    (hy : y ∈ ch.members) (hp : x.port = y.port) : x = y := by
  exact List.inj_on_of_nodup_map hn hx hy hp

theorem State.asMember_eq {k : ConduitNo → Channel → Endpoint → Answer} {f : Flow} (hb : b.toNat = n.val)
    (hc : s.channel n = some ch) (he : ch.endpoint? p = some e) (hf : ch.stage.flow? = some f) :
    s.asMember p b k = k n ch e := by
  unfold State.asMember
  rw [State.onConduit_eq hb hc]
  simp only [he]
  cases hst : ch.stage with
  | offered d => rw [hst] at hf; cases hf
  | opened x => rfl
  | draining x => rfl

theorem State.asMember_of_not_member {k : ConduitNo → Channel → Endpoint → Answer} (hb : b.toNat = n.val)
    (hc : s.channel n = some ch) (hp : p ∉ ch.memberPorts) : s.asMember p b k = refuse s .notMember := by
  unfold State.asMember
  rw [State.onConduit_eq hb hc]
  simp only [Channel.endpoint?_eq_none.2 hp]

theorem State.asMember_of_offered {k : ConduitNo → Channel → Endpoint → Answer} {d : Tick} (hb : b.toNat = n.val)
    (hc : s.channel n = some ch) (hp : p ∈ ch.memberPorts) (hst : ch.stage = .offered d) :
    s.asMember p b k = refuse s .wrongState := by
  unfold State.asMember
  rw [State.onConduit_eq hb hc]
  cases he : ch.endpoint? p with
  | none => exact absurd hp (Channel.endpoint?_eq_none.1 he)
  | some e => simp only [hst]

/-- A refusal by the owning block of an ATTACHED port. -/
theorem State.transact_refused {c : Command} {args : List Byte} {named : Option ConduitNo} {owner : State → Answer}
    {o : OutcomeCode} (ha : s.Awaits p .attached) (hc : c ≠ .attach) (ho : owner s = refuse s o) (hd : o ≠ .done) :
    s.transact p c args named owner = s.replied p c o named none [] := by
  rw [State.transact_of_attached ha hc ho rfl (fun h => absurd h hd)]
  simp [refuse, hd]

/-- The checks of a member's command. -/
theorem State.checksMember {c : Command} {i : Instr} {args : List Byte}
    {k : State → ConduitNo → Channel → Endpoint → Answer} (ha : s.Awaits p .attached) (hc : c ≠ .attach)
    (hi : exec i s = .next (s.transact p c args (conduitOf? b) (fun s => s.asMember p b (k s)))) :
    s.ChecksMember p b c i := by
  intro n ch hb hch
  constructor
  · intro hp
    rw [hi, State.transact_refused ha hc (State.asMember_of_not_member hb hch hp) (by simp), conduitOf?_of_toNat hb]
  · intro hp d hd
    rw [hi, State.transact_refused ha hc (State.asMember_of_offered hb hch hp hd) (by simp), conduitOf?_of_toNat hb]

/-! #### Reads -/

theorem State.sequenceOf_live {h : Handle} {g : Segment} {q : Half} {r : Refs} (hg : s.segment h = some g)
    (hst : g.stage = .live q r) : s.sequenceOf h = q := by
  simp only [State.sequenceOf, hg, hst]

theorem State.readFields_live {h : Handle} {g : Segment} {q : Half} {r : Refs} (hg : s.segment h = some g)
    (hst : g.stage = .live q r) : s.readFields h = bigEndian q ++ [byteOf h.val] ++ halfBytes g.length := by
  simp only [State.readFields, State.sequenceOf_live hg hst, hg]

/-- A claim that leaves a reference is a change of the tallies. -/
theorem State.claim_of_kept {c : Claim} {h : Handle} {g : Segment} {q : Half} {r : Refs} (hg : s.segment h = some g)
    (hst : g.stage = .live q r) (ht : (c.change r).total ≠ 0) :
    s.claim c h = s.setSegment h (some { g with stage := .live q (c.change r) }) := by
  simp only [State.claim, hg, hst]
  exact if_neg ht

/-- One member's endpoint changed, where the members are on distinct ports. -/
theorem Channel.updateEndpoint_eq {f : Endpoint → Endpoint} {e' : Endpoint → Endpoint} (hn : ch.memberPorts.Nodup)
    (he : ch.endpoint? p = some e) (h : f e = e' e) : ch.updateEndpoint p f = ch.updateEndpoint p e' := by
  obtain ⟨hm, hp⟩ := Channel.endpoint?_some he
  unfold Channel.updateEndpoint
  congr 1
  refine List.map_congr_left (fun x hx => ?_)
  split
  · rename_i hxp
    rw [Channel.endpoint_unique hn hx hm (hxp.trans hp.symm), h]
  · rfl

/-- A hold that joins an endpoint's hold set, from the head of its delivery queue (R68). -/
def Endpoint.taken (rest : List Handle) (d : Hold) (x : Endpoint) : Endpoint :=
  { x with queue := rest, holds := x.holds ++ [d] }

/-- The hold a TAKE makes (R75, R180). -/
def State.holdOf (s : State) (ch : Channel) (h : Handle) (q : Half) : Hold :=
  { sequence := q, handle := h,
    deadline := if ch.holdLimit = 0 then none else some (s.time.counter + BitVec.ofNat 32 (ch.holdLimit + 1)) }

/-- A TAKE of a LIVE head: the hold is made, and the conduit is not drained by it. -/
theorem State.takeHead_eq {h : Handle} {rest : List Handle} {g : Segment} {q : Half} {r : Refs}
    (hc : s.channel n = some ch) (he : ch.endpoint? p = some e) (hq : e.queue = h :: rest)
    (hg : s.segment h = some g) (hst : g.stage = .live q r) (hn : ch.memberPorts.Nodup) :
    s.takeHead p n ch h =
      { s with
        conduits := s.withUse n (some (ch.updateEndpoint p (Endpoint.taken rest (s.holdOf ch h q))))
        pool := { s.pool with
          descriptors := s.pool.descriptors.set h (some { g with
            stage := .live q { queue := r.queue - 1, hold := r.hold + 1, transfer := r.transfer + 1 } }) } } := by
  have hupd : s.updateEndpoint n p (fun e => { e with
      queue := e.queue.tail
      holds := e.holds ++
        [{ sequence := s.sequenceOf h, handle := h, deadline := s.holdDeadline ch.holdLimit }] }) =
      s.setChannel n (some (ch.updateEndpoint p (Endpoint.taken rest (s.holdOf ch h q)))) := by
    unfold State.updateEndpoint
    rw [s.updateChannel_of_some n hc]
    congr 2
    refine Channel.updateEndpoint_eq hn he ?_
    rw [State.sequenceOf_live hg hst, hq]
    rfl
  have hundrained : (ch.updateEndpoint p (Endpoint.taken rest (s.holdOf ch h q))).drained = false := by
    obtain ⟨hm, hp⟩ := Channel.endpoint?_some he
    unfold Channel.drained
    rw [List.all_eq_false]
    refine ⟨Endpoint.taken rest (s.holdOf ch h q) e, ?_, by simp [Endpoint.taken]⟩
    exact List.mem_map.2 ⟨e, hm, by simp [hp]⟩
  unfold State.takeHead
  have hclaim : (s.setChannel n (some (ch.updateEndpoint p (Endpoint.taken rest (s.holdOf ch h q))))).claim .take h =
      (s.setChannel n (some (ch.updateEndpoint p (Endpoint.taken rest (s.holdOf ch h q))))).setSegment h
        (some { g with stage := .live q { queue := r.queue - 1, hold := r.hold + 1, transfer := r.transfer + 1 } }) :=
    State.claim_of_kept (c := .take) hg hst (by simp [Claim.change, Refs.total])
  rw [hupd, hclaim]
  unfold State.drainCheck
  rw [State.setSegment_channel, State.setChannel_channel, if_pos rfl]
  simp only
  split
  · rw [hundrained]; rfl
  · rfl

/-- What a TAKE leaves of the head's descriptor and of the port. -/
theorem State.takeHead_head {h : Handle} {rest : List Handle} {g : Segment} {q : Half} {r : Refs}
    (hc : s.channel n = some ch) (he : ch.endpoint? p = some e) (hq : e.queue = h :: rest)
    (hg : s.segment h = some g) (hst : g.stage = .live q r) (hn : ch.memberPorts.Nodup) :
    (s.takeHead p n ch h).segment h = some { g with
      stage := .live q { queue := r.queue - 1, hold := r.hold + 1, transfer := r.transfer + 1 } } ∧
    (s.takeHead p n ch h).port p = s.port p := by
  rw [State.takeHead_eq hc he hq hg hst hn]
  exact ⟨(getElem_set_handle h h _ _).trans (if_pos rfl), rfl⟩

/-- The port of an accepted read is in the reply phase of a transfer (R163). -/
theorem State.replied_transferHandle? {c : Command} {x : Transaction} {named : Option ConduitNo} {h : Handle}
    {fields : List Byte} (hc : c ∈ readCommands) (hx : (s.port p).transaction = some x) :
    (s.replied p c .done named (some h) fields).transferHandle? p = some h := by
  have hread : (readCommands.map Command.code).contains c.code = true := by
    rw [List.contains_iff_mem]
    exact List.mem_map_of_mem hc
  simp only [State.transferHandle?, State.replied, State.setPort_port_self, PortController.replied,
    PortController.replying, hx, Option.map_some, OutcomeRecord.isRead, hread]
  rfl

/-- Behind the fields of an accepted read the segment's payload follows, and then zeros (R163). -/
theorem State.replied_shiftsPayload {c : Command} {x : Transaction} {named : Option ConduitNo} {h : Handle}
    {fields : List Byte} {g g' : Segment} (hc : c ∈ readCommands) (hx : (s.port p).transaction = some x)
    (hseg : s.segment h = some g') (hpay : g'.payload = g.payload) (hlen : g.payload.length = g.length)
    {position : Nat} (hpos : position = c.replyPosition + 1 + fields.length) :
    (s.replied p c .done named (some h) fields).ShiftsPayload p position g := by
  have hport : ((s.replied p c .done named (some h) fields).port p).transaction = some { x with
      phase := .reply
      byteCount := 1 + c.argumentCount
      replyPosition := c.replyPosition
      reply := OutcomeCode.done.byte :: fields } := by
    simp [State.replied, PortController.replied, PortController.replying, hx]
  have hout : ∀ k, (s.replied p c .done named (some h) fields).shiftedOut p (position + k) =
      some (g.payload.getD k 0) := by
    intro k
    have h4 : 4 ≤ c.replyPosition := Nat.le_max_left _ _
    have hbyte : (s.replied p c .done named (some h) fields).transferByte p k = g.payload.getD k 0 := by
      unfold State.transferByte
      rw [State.replied_transferHandle? hc hx]
      have : (s.replied p c .done named (some h) fields).segment h = some g' := hseg
      simp only [this, hpay]
    unfold State.shiftedOut
    rw [hport]
    simp only [List.length_cons]
    rw [if_neg (by omega), if_neg (by omega), if_neg (by omega),
      show position + k - c.replyPosition - (fields.length + 1) = k by omega, hbyte]
  intro k
  refine ⟨fun hk => ?_, fun hk => ?_⟩
  · rw [hout, List.getD_eq_getElem?_getD]
    rw [← hlen] at hk
    simp [List.getElem?_eq_getElem hk]
  · rw [hout, List.getD_eq_default _ _ (by omega)]

/-- A read that its owning block accepts, written and replied. -/
theorem State.transact_read {c : Command} {args : List Byte} {named conduit : Option ConduitNo}
    {owner : State → Answer} {u : State} {h : Handle} {fields : List Byte} (ha : s.Awaits p .attached)
    (hc : c ∈ readCommands)
    (ho : owner s = { state := u, outcome := .done, conduit, handle := some h, fields })
    (ht : (u.port p).transaction = (s.port p).transaction) :
    s.transact p c args named owner = u.replied p c .done (conduit.or named) (some h) fields := by
  have hne : c ≠ .attach ∧ c ≠ .status ∧ c ≠ .detach ∧ c ≠ .post := by
    simp only [readCommands, List.mem_cons, List.not_mem_nil, or_false] at hc
    obtain rfl | rfl | rfl | rfl := hc <;> simp
  rw [State.transact_of_attached ha hne.1 ho ht (fun _ => hne.2)]
  simp

theorem State.Awaits.transaction {shown : ShownState} (ha : s.Awaits p shown) :
    ∃ x, (s.port p).transaction = some x := by
  obtain ⟨-, x, hx, -⟩ := ha
  exact ⟨x, hx⟩

theorem fields_length (q : Half) (x : Byte) (k : Nat) : (bigEndian q ++ [x] ++ halfBytes k).length = 5 := rfl

end Commands

end Sys2Proof.Machine

section TakePeekAndReadHeld

open Sys2Proof Sys2Proof.Machine

/-- Settles O45. -/
theorem takeMovesTheHeadToTheHolds : Obligations.TakeMovesTheHeadToTheHolds := by
  refine ⟨fun s p b ha => State.checksMember ha (by simp) rfl, fun s p b n ch f e ha hb hc hf he => ?_⟩
  have hans : takeAnswer p b s = _ := State.asMember_eq hb hc he hf
  refine ⟨fun hq => ?_, fun hq hfull => ?_, fun h rest g q r hq hroom hg hst hn => ?_⟩
  · have : takeAnswer p b s = refuse s .empty := by rw [hans]; simp only [hq]
    refine congrArg Host.Outcome.next ?_
    rw [State.transact_refused ha (by simp) this (by simp), conduitOf?_of_toNat hb]
  · have : takeAnswer p b s = refuse s .holdsFull := by
      rw [hans]
      obtain ⟨h, rest, hq⟩ := List.exists_cons_of_ne_nil hq
      have hroom : e.hasHoldRoom = false := by exact decide_eq_false (Nat.not_lt.2 hfull)
      simp only [hq, hroom]
      rfl
    refine congrArg Host.Outcome.next ?_
    rw [State.transact_refused ha (by simp) this (by simp), conduitOf?_of_toNat hb]
  · have hroom' : e.hasHoldRoom = true := by simp [Endpoint.hasHoldRoom, Config.holdsPerEndpoint, hroom]
    have hown : takeAnswer p b s =
        { state := s.takeHead p n ch h
          outcome := .done
          handle := some h
          fields := bigEndian q ++ [byteOf h.val] ++ halfBytes g.length } := by
      rw [hans]
      simp only [hq, hroom', ← State.readFields_live hg hst]
      rfl
    have hexec : exec (.take p b) s = .next ((s.takeHead p n ch h).replied p .take .done (some n) (some h)
        (bigEndian q ++ [byteOf h.val] ++ halfBytes g.length)) := by
      refine congrArg Host.Outcome.next ?_
      rw [State.transact_read ha (by simp [readCommands]) hown (by rw [(State.takeHead_head hc he hq hg hst hn).2]),
        conduitOf?_of_toNat hb]
      rfl
    refine ⟨?_, fun hlen t ht => ?_⟩
    · rw [hexec, State.takeHead_eq hc he hq hg hst hn]
      rfl
    · rw [hexec] at ht
      cases ht
      obtain ⟨x, hx⟩ := ha.transaction
      obtain ⟨hseg, hport⟩ := State.takeHead_head hc he hq hg hst hn
      exact State.replied_shiftsPayload (c := .take) (by simp [readCommands]) (hport ▸ hx) hseg rfl hlen
        (by rw [fields_length]; rfl)

/-- Settles O48. -/
theorem peekAndReadHeldPlaceOnlyATransfer : Obligations.PeekAndReadHeldPlaceOnlyATransfer := by
  refine ⟨fun s p b wanted ha => ⟨State.checksMember ha (by simp) rfl, State.checksMember ha (by simp) rfl⟩,
    fun s p b n ch f e ha hb hc hf he => ?_⟩
  have hpeek : peekAnswer p b s = _ := State.asMember_eq hb hc he hf
  have hread : ∀ wanted, readHeldAnswer p b wanted s = _ := fun wanted => State.asMember_eq hb hc he hf
  have placed : ∀ (c : Claim) (h : Handle) (g : Segment) (q : Half) (r : Refs), s.segment h = some g →
      g.stage = .live q r → c.change r = { r with transfer := r.transfer + 1 } →
      s.claim c h = s.setSegment h (some { g with stage := .live q { r with transfer := r.transfer + 1 } }) := by
    intro c h g q r hg hst hch
    rw [State.claim_of_kept hg hst (by simp [hch, Refs.total]), hch]
  have accepted : ∀ (cmd : Command) (c : Claim) (args : List Byte) (owner : State → Answer) (h : Handle) (g : Segment)
      (q : Half) (r : Refs), cmd ∈ [Command.peek, .readHeld] → c ∈ [Claim.peek, .heldRead] →
      s.segment h = some g → g.stage = .live q r →
      owner s = { state := s.claim c h, outcome := .done, handle := some h, fields := s.readFields h } →
      s.transact p cmd args (conduitOf? b) owner = State.replied
        (s.setSegment h (some { g with stage := .live q { r with transfer := r.transfer + 1 } }))
        p cmd .done (some n) (some h) (bigEndian q ++ [byteOf h.val] ++ halfBytes g.length) ∧
      (g.payload.length = g.length → ∀ t, Host.Outcome.next (s.transact p cmd args (conduitOf? b) owner) =
        (.next t : Host.Outcome State Fault Refusal) → t.ShiftsPayload p 10 g) := by
    intro cmd c args owner h g q r hcmd hcl hg hst hown
    have hch : c.change r = { r with transfer := r.transfer + 1 } := by fin_cases hcl <;> rfl
    have hmem : cmd ∈ readCommands := by fin_cases hcmd <;> simp [readCommands]
    have hpos : 10 = cmd.replyPosition + 1 + 5 := by fin_cases hcmd <;> rfl
    have key := State.transact_read (args := args) (named := conduitOf? b) ha hmem hown
      (by rw [placed c h g q r hg hst hch]; rfl)
    rw [placed c h g q r hg hst hch, State.readFields_live hg hst, conduitOf?_of_toNat hb] at key
    rw [conduitOf?_of_toNat hb, key]
    refine ⟨rfl, fun hlen t ht => ?_⟩
    cases ht
    obtain ⟨x, hx⟩ := ha.transaction
    exact State.replied_shiftsPayload
      (s := s.setSegment h (some { g with stage := .live q { r with transfer := r.transfer + 1 } }))
      hmem hx (State.setSegment_segment_self s h _) rfl hlen (hpos.trans (by rw [fields_length]))
  refine ⟨fun hq => ?_, fun h rest g q r hq hg hst => ?_, fun wanted hno => ?_, fun wanted d g q r hd hg hst => ?_⟩
  · have : peekAnswer p b s = refuse s .empty := by rw [hpeek]; simp only [hq]
    refine congrArg Host.Outcome.next ?_
    rw [State.transact_refused ha (by simp) this (by simp), conduitOf?_of_toNat hb]
  · obtain ⟨h1, h2⟩ := accepted .peek .peek [b] (peekAnswer p b) h g q r (by simp) (by simp) hg hst
      (by rw [hpeek]; simp only [hq])
    exact ⟨congrArg Host.Outcome.next h1, h2⟩
  · have : readHeldAnswer p b wanted s = refuse s .unknownSeq := by
      have hnone : e.hold? wanted = none := by
        simpa [Endpoint.hold?, List.find?_eq_none] using hno
      rw [hread]
      simp only [hnone]
    refine congrArg Host.Outcome.next ?_
    rw [State.transact_refused ha (by simp) this (by simp), conduitOf?_of_toNat hb]
  · have hhold : e.hold? wanted = some d := hd
    obtain ⟨h1, h2⟩ := accepted .readHeld .heldRead (b :: bigEndian wanted) (readHeldAnswer p b wanted) d.handle g q r
      (by simp) (by simp) hg hst (by rw [hread]; simp only [hhold])
    exact ⟨congrArg Host.Outcome.next h1, h2⟩

end TakePeekAndReadHeld


/-! ### The arbiter of TAKE_ANY -/

namespace Sys2Proof.Machine

section Arbiter

variable {s : State} {p : Port}

/-- How far a conduit number stands behind the rotation point in the search (R70). -/
def searchDistance (rotation n : ConduitNo) : Nat := (n.val + 23 - rotation.val) % 24

theorem searchOrder_at (rotation n : ConduitNo) :
    Fin.ofNat 24 (rotation.val + 1 + searchDistance rotation n) = n := by
  apply Fin.ext
  have hr := rotation.isLt
  have hn := n.isLt
  simp only [Fin.ofNat, searchDistance]
  omega

theorem searchDistance_at {rotation : ConduitNo} {k : Nat} (hk : k < 24) :
    searchDistance rotation (Fin.ofNat 24 (rotation.val + 1 + k)) = k := by
  have hr := rotation.isLt
  simp only [Fin.ofNat, searchDistance]
  omega

/-- The search finds the number nearest behind the rotation point. -/
theorem find?_searchOrder {rotation n : ConduitNo} {c : ConduitNo → Bool} (hn : c n = true)
    (hmin : ∀ m, c m = true → searchDistance rotation n ≤ searchDistance rotation m) :
    (searchOrder rotation).find? c = some n := by
  unfold searchOrder
  rw [List.find?_map, Option.map_eq_some_iff]
  refine ⟨searchDistance rotation n, ?_, searchOrder_at rotation n⟩
  rw [List.find?_range_eq_some]
  refine ⟨by rw [Function.comp_apply, searchOrder_at]; exact hn, ?_, fun j hj => ?_⟩
  · exact List.mem_range.2 (Nat.mod_lt _ (by omega))
  · have h24 : searchDistance rotation n < 24 := Nat.mod_lt _ (by omega)
    by_contra hc
    have := hmin (Fin.ofNat 24 (rotation.val + 1 + j)) (by simpa using hc)
    rw [searchDistance_at (by omega)] at this
    omega

theorem State.waiting?_eq_some {n : ConduitNo} {ch : Channel} {f : Flow} {e : Endpoint} {h : Handle}
    {rest : List Handle} (hc : s.channel n = some ch) (hf : ch.stage.flow? = some f)
    (he : ch.endpoint? p = some e) (hq : e.queue = h :: rest) : s.waiting? p n = some (ch, e, h) := by
  simp only [State.waiting?, hc, hf, he, hq]

/-- The arbiter takes the URGENT class first, and in each class the nearest behind the rotation point (R70). -/
theorem State.takeAnyChoice_eq {n : ConduitNo} {cls : ConduitClass} (hn : s.eligible p cls n = true)
    (hu : ∀ m, s.eligible p .urgent m = true → cls = .urgent ∧
      searchDistance (s.port p).rotation n ≤ searchDistance (s.port p).rotation m)
    (hr : ∀ m, s.eligible p .routine m = true → cls = .urgent ∨
      searchDistance (s.port p).rotation n ≤ searchDistance (s.port p).rotation m) :
    s.takeAnyChoice p = some n := by
  unfold State.takeAnyChoice
  simp only
  cases cls with
  | urgent =>
    rw [find?_searchOrder hn (fun m hm => (hu m hm).2)]
    rfl
  | routine =>
    have hnone : (searchOrder (s.port p).rotation).find? (s.eligible p .urgent) = none := by
      rw [List.find?_eq_none]
      intro m _ hm
      cases (hu m hm).1
    rw [hnone, find?_searchOrder hn (fun m hm => (hr m hm).resolve_left (by simp))]
    rfl

end Arbiter

end Sys2Proof.Machine

section TakeAny

open Sys2Proof Sys2Proof.Machine

/-- Settles O46: the arbiter chooses the slot, and the rest is a TAKE there. -/
theorem takeAnyTakesByClassAndRotation : Obligations.TakeAnyTakesByClassAndRotation := by
  intro s p n ch f e h rest g q r ha hc hf he hq hroom hg hst hn hu hr
  have hwait := State.waiting?_eq_some hc hf he hq
  have heligible : s.eligible p ch.cls n = true := by
    simp [State.eligible, hwait, Endpoint.hasHoldRoom, Config.holdsPerEndpoint, hroom]
  have hchoice : s.takeAnyChoice p = some n := State.takeAnyChoice_eq heligible hu hr
  have hown : takeAnyAnswer p s =
      { state := (s.takeHead p n ch h).setPort p { (s.takeHead p n ch h).port p with rotation := n }
        outcome := .done
        conduit := some n
        handle := some h
        fields := byteOf n.val :: (bigEndian q ++ [byteOf h.val] ++ halfBytes g.length) } := by
    unfold takeAnyAnswer
    simp only [hchoice, hwait, ← State.readFields_live hg hst]
  obtain ⟨hseg, hport⟩ := State.takeHead_head hc he hq hg hst hn
  have hexec := State.transact_read (args := []) (named := none) ha (c := .takeAny) (by simp [readCommands]) hown
    (by rw [State.setPort_port_self, hport])
  have hexec' : exec (.takeAny p) s = .next _ := congrArg Host.Outcome.next hexec
  refine ⟨?_, fun hlen t ht => ?_⟩
  · rw [hexec', hport, State.takeHead_eq hc he hq hg hst hn]
    rfl
  · rw [hexec'] at ht
    cases ht
    obtain ⟨x, hx⟩ := ha.transaction
    have hx' : (((s.takeHead p n ch h).setPort p { (s.takeHead p n ch h).port p with rotation := n }).port p).transaction =
        some x := by rw [State.setPort_port_self, hport, hx]
    exact State.replied_shiftsPayload (c := .takeAny) (by simp [readCommands]) hx' hseg rfl hlen
      (by rw [List.length_cons, fields_length]; rfl)

end TakeAny

/-! ### Posting -/

namespace Sys2Proof.Machine

section Posting

variable {s : State} {p : Port} {b : Byte} {n : ConduitNo} {ch : Channel}

theorem State.asProducer_eq {k : ConduitNo → Channel → Answer} (hb : b.toNat = n.val) (hc : s.channel n = some ch)
    (hp : ch.producer = p) (hpp : ch.producerPresent = true) : s.asProducer p b k = k n ch := by
  unfold State.asProducer
  rw [State.onConduit_eq hb hc]
  simp [Channel.presentProducer, hp, hpp]

theorem State.asProducer_refused {k : ConduitNo → Channel → Answer} (hb : b.toNat = n.val)
    (hc : s.channel n = some ch) (hp : ¬ (ch.producer = p ∧ ch.producerPresent = true)) :
    s.asProducer p b k = refuse s .notProducer := by
  unfold State.asProducer
  rw [State.onConduit_eq hb hc]
  have : ch.presentProducer p = false := by
    rw [Channel.presentProducer, Bool.and_eq_false_iff]
    by_cases h : ch.producer = p
    · exact .inr (by simpa [h] using hp)
    · exact .inl (by simpa using h)
  simp [this]

/-- A POST on an OPEN conduit by its present producer: the checks of R51 behind the state check, and the fill. -/
theorem postAnswer_eq {f : Flow} {len : Half} (hb : b.toNat = n.val) (hc : s.channel n = some ch)
    (hp : ch.producer = p) (hpp : ch.producerPresent = true) (hst : ch.stage = .opened f) :
    postAnswer p b len s =
      if len = 0 then refuse s .badArgument
      else if f.maxSize < len.toNat then refuse s .tooLong
      else if ¬ f.outstanding < f.window then
        refuse (s.updateChannel n (Channel.mapFlow (fun f => { f with windowLatch := true }))) .windowFull
      else if s.sequenceInUse n f.nextSequence then refuse s .seqInUse
      else if !s.segmentQuotaAllows p len.toNat then refuse s .overQuota
      else
        match s.pool.freeList with
        | [] => refuse s .overQuota
        | h :: _ => { state := s.startFill h p n len.toNat, outcome := .done, handle := some h } := by
  unfold postAnswer
  rw [State.asProducer_eq hb hc hp hpp]
  simp only [hst] <;> rfl

/-- A refused answer whose block changed a slot, written and replied (R61). -/
theorem State.transact_refused_with {c : Command} {args : List Byte} {named : Option ConduitNo}
    {owner : State → Answer} {o : OutcomeCode} {u : State} (ha : s.Awaits p .attached) (hc : c ≠ .attach)
    (ho : owner s = refuse u o) (hd : o ≠ .done) (hu : (u.port p).transaction = (s.port p).transaction) :
    s.transact p c args named owner = u.replied p c o named none [] := by
  rw [State.transact_of_attached ha hc ho hu (fun h => absurd h hd)]
  simp [refuse, hd]

/-- An accepted POST enters the payload phase (R162). -/
theorem State.transact_post {args : List Byte} {named : Option ConduitNo} {owner : State → Answer} {h : Handle}
    {u : State} (ha : s.Awaits p .attached) (ho : owner s = { state := u, outcome := .done, handle := some h })
    (hu : u.port p = s.port p) :
    s.transact p .post args named owner = u.setPort p
      { (s.port p).replied .post .done named (some h) [] with
        transaction := (s.port p).transaction.map (fun x =>
          { x with
            phase := .payload
            byteCount := 4
            replyPosition := 4
            reply := [0x00] }) } := by
  obtain ⟨x, hx, he⟩ := State.transact_of_awaits ha .post args named owner
  rw [he]
  simp only [admission, ho, State.accept, State.writeOutcome, State.enterReply, hx]
  simp [hu, PortController.replied, PortController.replying, Command.argumentCount, Command.replyPosition,
    replyBytes, OutcomeCode.byte]

end Posting

end Sys2Proof.Machine

section Post

open Sys2Proof Sys2Proof.Machine

/-- Settles O43. -/
theorem postBeginsAFill : Obligations.PostBeginsAFill := by
  have refused : ∀ (s u : State) (p : Port) (b : Byte) (len : Half) (n : ConduitNo) (o : OutcomeCode),
      s.Awaits p .attached → b.toNat = n.val → postAnswer p b len s = refuse u o → o ≠ .done →
      u.port p = s.port p → exec (.post p b len) s = .next (u.replied p .post o (some n) none []) := by
    intro s u p b len n o ha hb ho hd hu
    refine congrArg Host.Outcome.next ?_
    rw [State.transact_refused_with ha (by simp) ho hd (by rw [hu]), conduitOf?_of_toNat hb]
  refine ⟨fun s p b len n ch ha hb hc => ⟨fun hp => ?_, fun hp hpp => ⟨fun hno => ?_, fun f hst => ?_⟩⟩,
    fun s p b len n ch f h others ha hb hc hp hpp hst hlen hsize hroom hseq hqd hqb hfree => ?_⟩
  · exact refused s s p b len n _ ha hb (State.asProducer_refused hb hc hp) (by simp) rfl
  · have hans : postAnswer p b len s = refuse s .wrongState := by
      unfold postAnswer
      rw [State.asProducer_eq hb hc hp hpp]
      cases hs : ch.stage with
      | offered d => rfl
      | opened f => exact absurd hs (hno f)
      | draining f => rfl
    exact refused s s p b len n _ ha hb hans (by simp) rfl
  · have hans := postAnswer_eq (len := len) hb hc hp hpp hst
    refine ⟨fun hzero => ?_, fun hlen hlong => ?_, fun hlen hsize => ⟨fun hfull => ?_, fun hroom =>
      ⟨fun hseq => ?_, fun hseq hquota => ?_⟩⟩⟩
    · rw [if_pos hzero] at hans
      exact refused s s p b len n _ ha hb hans (by simp) rfl
    · rw [if_neg hlen, if_pos hlong] at hans
      exact refused s s p b len n _ ha hb hans (by simp) rfl
    · have hlatch : s.updateChannel n (Channel.mapFlow (fun f => { f with windowLatch := true })) =
          { s with conduits := s.withUse n (some { ch with stage := .opened { f with windowLatch := true } }) } := by
        rw [s.updateChannel_of_some n hc, Channel.mapFlow, hst]
        rfl
      rw [if_neg hlen, if_neg (by omega), if_pos (by omega), hlatch] at hans
      exact refused s _ p b len n _ ha hb hans (by simp) rfl
    · rw [if_neg hlen, if_neg (by omega), if_neg (by omega), if_pos hseq] at hans
      exact refused s s p b len n _ ha hb hans (by simp) rfl
    · have hq : s.segmentQuotaAllows p len.toNat = false := by
        simp only [State.segmentQuotaAllows, decide_eq_false_iff_not, not_and_or, Nat.not_le]
        exact hquota
      rw [if_neg hlen, if_neg (by omega), if_neg (by omega), if_neg (by simp [hseq]), if_pos (by simp [hq])] at hans
      exact refused s s p b len n _ ha hb hans (by simp) rfl
  · have hq : s.segmentQuotaAllows p len.toNat = true := by
      simp only [State.segmentQuotaAllows, decide_eq_true_eq]
      exact ⟨hqd, hqb⟩
    have hans := postAnswer_eq (len := len) hb hc hp hpp hst
    rw [if_neg hlen, if_neg (by omega), if_neg (by omega), if_neg (by simp [hseq]), if_neg (by simp [hq])] at hans
    simp only [hfree] at hans
    have hfill : s.startFill h p n len.toNat =
        { s with
          conduits := s.withUse n (some { ch with stage := .opened { f with outstanding := f.outstanding + 1 } })
          pool := s.pool.allocate h p n len.toNat } := by
      have hpool : ({ s with pool := s.pool.allocate h p n len.toNat } : State).channel n = some ch := hc
      rw [State.startFill, State.updateChannel_of_some _ n hpool, Channel.mapFlow, hst]
      rfl
    refine congrArg Host.Outcome.next ?_
    rw [State.transact_post ha hans (by rw [hfill]; rfl), conduitOf?_of_toNat hb, hfill]
    simp only [Pool.allocate, hfree, List.tail_cons]
    rfl

end Post

/-! ### The completion of a fill -/

namespace Sys2Proof.Machine

section Completion

variable {s : State} {p : Port} {c : PortController}

/-- The records heard depend on the event queues and on which ports are ATTACHED. -/
theorem State.heard_congr {t : State} (hat : ∀ q, t.Attached q ↔ s.Attached q) (hev : t.events = s.events)
    (f : Port → List Event) : t.heard f = s.heard f := by
  apply PerPort.ext_get
  intro q
  rw [State.heard_get, State.heard_get]
  unfold State.hears
  rw [hev]
  exact if_congr (hat q) rfl rfl

theorem State.setPort_attached (hc : c.state = (s.port p).state) (q : Port) :
    (s.setPort p c).Attached q ↔ s.Attached q := by
  unfold State.Attached
  rw [State.setPort_port]
  split
  · rename_i e; rw [e, hc]
  · rfl

/-- Records are told alike whatever a controller holds but for the port state. -/
theorem State.setPort_tell (hc : c.state = (s.port p).state) (f : Port → List Event) :
    (s.setPort p c).tell f = (s.tell f).setPort p c := by
  have hev : (s.setPort p c).heard f = s.heard f := State.heard_congr (State.setPort_attached hc) rfl f
  simp only [State.tell, hev]
  rfl

theorem State.setPort_updateChannel (n : ConduitNo) (f : Channel → Channel) :
    (s.setPort p c).updateChannel n f = (s.updateChannel n f).setPort p c := by
  cases hx : s.channel n with
  | none => rw [s.updateChannel_of_none n hx, State.updateChannel_of_none _ n (by exact hx)]
  | some ch => rw [s.updateChannel_of_some n hx, State.updateChannel_of_some _ n (by exact hx)]; rfl

theorem State.setPort_notify? (hc : c.state = (s.port p).state) (o : Option ConduitNo) :
    (s.setPort p c).notify? o = (s.notify? o).setPort p c := by
  cases o with
  | none => rfl
  | some n =>
    have hport : (s.updateChannel n (Channel.mapFlow (fun f => f.afterFreeing 1))).port p = s.port p := by
      unfold State.port; rw [(s.updateChannel_surroundings n _).ports]
    rw [State.notify?_some, State.notify?_some, State.noticed, State.setPort_updateChannel,
      State.setPort_tell (by rw [hc, hport])]
    rfl

/-- A freeing is the same whatever a controller holds but for the port state. -/
theorem State.setPort_freeDescriptor (hc : c.state = (s.port p).state) (h : Handle) :
    (s.setPort p c).freeDescriptor h = (s.freeDescriptor h).setPort p c := by
  cases hg : s.segment h with
  | none => rw [s.freeDescriptor_of_none h hg, State.freeDescriptor_of_none _ h (by exact hg)]
  | some g =>
    rw [s.freeDescriptor_of_some h hg, State.freeDescriptor_of_some _ h (by exact hg)]
    exact State.setPort_notify? (s := { s with pool := s.pool.reclaim h g }) hc g.conduit

theorem State.setSegment_freeDescriptor {h : Handle} {g g' : Segment} (hg : s.segment h = some g)
    (hp : g'.producer = g.producer) (hl : g'.length = g.length) (hn : g'.conduit = g.conduit) :
    (s.setSegment h (some g')).freeDescriptor h = s.freeDescriptor h := by
  rw [s.freeDescriptor_of_some h hg, State.freeDescriptor_of_some _ h (State.setSegment_segment_self s h _), hn]
  congr 1
  simp only [State.setSegment, Pool.reclaim_set]
  simp only [Pool.reclaim, hp, hl]

/-- A delivery whole: to every member, with ARRIVED to those whose queue was empty (R64). -/
theorem State.deliver_spec (s : State) (h : Handle) (g : Segment) (n : ConduitNo) {ch : Channel} (f : Flow)
    (hn : ch.memberPorts.Nodup) : s.deliver h g n ch f =
      { s with
        conduits := s.withUse n (some { ch with
          members := ch.members.map (fun e => { e with queue := e.queue ++ [h] })
          stage := ch.stage.mapFlow (fun f => { f with nextSequence := f.nextSequence + 1 }) })
        pool := { s.pool with
          descriptors := s.pool.descriptors.set h (some { g with
            stage := .live f.nextSequence { queue := ch.members.length, hold := 0, transfer := 0 } }) }
        events := s.heard (fun q =>
          if ch.members.any (fun e => e.port == q && e.queue.isEmpty) then [.arrived n] else []) } := by
  have hnodup : ((ch.members.filter (fun e => e.queue.isEmpty)).map (fun e => e.port)).Nodup :=
    hn.sublist (List.filter_sublist.map _)
  have htold : (fun q => if q ∈ (ch.members.filter (fun e => e.queue.isEmpty)).map (fun e => e.port) then
      [Event.arrived n] else []) =
      fun q => if ch.members.any (fun e => e.port == q && e.queue.isEmpty) = true then [.arrived n] else [] := by
    funext q
    refine if_congr ?_ rfl rfl
    simp only [List.mem_map, List.mem_filter, List.any_eq_true, Bool.and_eq_true, beq_iff_eq]
    constructor
    · rintro ⟨e, ⟨h1, h2⟩, h3⟩; exact ⟨e, h1, h3, h2⟩
    · rintro ⟨e, h1, h3, h2⟩; exact ⟨e, ⟨h1, h2⟩, h3⟩
  rw [State.deliver_eq, State.appendEvents_of_nodup _ _ hnodup, htold]
  rfl

/-- The fill after its last payload bytes: what the release of select completes. -/
theorem State.completion_eq {h : Handle} {x : Transaction} (bytes : List Byte) (hf : s.fillHandle? p = some h)
    (hx : (s.port p).transaction = some x) :
    exec (.fillCompletion p bytes) s = .next (((s.receivePayload p bytes).completeFill p h
      ({ x with byteCount := x.byteCount + bytes.length } : Transaction).payloadCount).endTransaction p) := by
  obtain ⟨y, hy, hph, ho⟩ := State.transaction_of_fill hf
  rw [hx] at hy
  cases hy
  have hfill := (s.receivePayload_handles p bytes p).1.trans hf
  have htrans : ((s.receivePayload p bytes).port p).transaction =
      some { x with byteCount := x.byteCount + bytes.length } := by
    rw [State.receivePayload_of_fill bytes hf hx]; simp
  refine congrArg Host.Outcome.next ?_
  simp only [hf]
  unfold State.releaseSelect
  simp only [htrans, hph, hfill]

/-- A fill that is freed as its transaction ends, with the outcome written (R55, R56). -/
theorem State.freed_fill_eq {h : Handle} {g : Segment} {x : Transaction} {bytes : List Byte} (o : OutcomeCode)
    (hf : s.fillHandle? p = some h) (hx : (s.port p).transaction = some x) (hg : s.segment h = some g) :
    (((s.receivePayload p bytes).freeDescriptor h).setOutcome p o).endTransaction p =
      (s.freeDescriptor h).setPort p { s.port p with
        outcome := { (s.port p).outcome with outcome := o }
        transaction := none } := by
  have hfree : (s.receivePayload p bytes).freeDescriptor h = (s.freeDescriptor h).setPort p { s.port p with
      transaction := some { x with byteCount := x.byteCount + bytes.length } } := by
    rw [State.receivePayload_of_fill bytes hf hx, hg, Option.map_some]
    have hgp : ∀ c, (s.setPort p c).segment h = some g := fun _ => hg
    rw [State.setSegment_freeDescriptor (g' := g.stored bytes) (hgp _) rfl rfl rfl]
    exact State.setPort_freeDescriptor (by rfl) h
  rw [hfree]
  simp [State.setOutcome, State.endTransaction]

end Completion

end Sys2Proof.Machine

section FillCompletion

open Sys2Proof Sys2Proof.Machine

/-- Settles O44. -/
theorem fillCompletionDeliversOrFrees : Obligations.FillCompletionDeliversOrFrees := by
  intro s p bytes h g x count hf hg hx hcount h4
  have hpc : ({ x with byteCount := x.byteCount + bytes.length } : Transaction).payloadCount = count := by
    simp only [Transaction.payloadCount, show Command.post.replyPosition = 4 from rfl] at hcount ⊢
    omega
  have hexec := State.completion_eq bytes hf hx
  rw [hpc] at hexec
  have hseg : (s.receivePayload p bytes).segment h = some (g.stored bytes) := by
    rw [State.receivePayload_segment, if_pos hf, hg]; rfl
  have hchan : ∀ n, (s.receivePayload p bytes).channel n = s.channel n := s.receivePayload_channel p bytes
  refine ⟨fun hshort => ?_, fun henough hnone => ?_, fun n ch f henough hn hc hfl hm hnd => ?_⟩
  · have hfill : (s.receivePayload p bytes).completeFill p h count =
        ((s.receivePayload p bytes).freeDescriptor h).setOutcome p .short := by
      simp only [State.completeFill, hseg]
      exact if_pos hshort
    rw [hexec, hfill, State.freed_fill_eq _ hf hx hg]
  · have htarget : (s.receivePayload p bytes).deliveryTarget (g.stored bytes) = none := by
      cases ht : (s.receivePayload p bytes).deliveryTarget (g.stored bytes) with
      | none => rfl
      | some target =>
        obtain ⟨n, ch, f⟩ := target
        obtain ⟨h1, h2, h3, h4⟩ := State.deliveryTarget_eq_some ht
        exact absurd (hnone n ch f h1 (hchan n ▸ h2) h3) h4
    have hfill : (s.receivePayload p bytes).completeFill p h count =
        ((s.receivePayload p bytes).freeDescriptor h).setOutcome p .discarded := by
      simp only [State.completeFill, hseg, htarget]
      exact if_neg (Nat.not_lt.2 henough)
    rw [hexec, hfill, State.freed_fill_eq _ hf hx hg]
  · have htarget : (s.receivePayload p bytes).deliveryTarget (g.stored bytes) = some (n, ch, f) := by
      have hcond : (g.stored bytes).conduit = some n := hn
      simp only [State.deliveryTarget, hcond, hchan, hc, hfl]
      simp [hm]
    have hfill : (s.receivePayload p bytes).completeFill p h count =
        ((s.receivePayload p bytes).deliver h (g.stored bytes) n ch f).setOutcome p
          (if count = g.length then .done else .excess) := by
      simp only [State.completeFill, hseg, htarget]
      exact if_neg (Nat.not_lt.2 henough)
    have hcounted : (s.receivePayload p bytes).heard (fun q =>
          if ch.members.any (fun e => e.port == q && e.queue.isEmpty) then [.arrived n] else []) =
        s.heard (fun q => if ch.members.any (fun e => e.port == q && e.queue.isEmpty) then [.arrived n] else []) := by
      rw [State.receivePayload_of_fill bytes hf hx]
      exact State.heard_congr (s := s) (State.setPort_attached (by rfl)) rfl _
    rw [hexec, hfill, State.deliver_spec _ h _ n f hnd, hcounted, State.receivePayload_of_fill bytes hf hx, hg]
    simp [State.setOutcome, State.endTransaction, State.setSegment, State.setPort, State.port, State.withUse,
      State.conduit, Segment.stored]

end FillCompletion


/-! ### References

A LIVE descriptor's tallies count what refers to it. Inside a row the counts run ahead of the tallies, or behind them,
until its claims are taken; so `Counted` is stated for any counts, and the rest of the law of the references, which every
operation keeps throughout, is `Sound`. -/

namespace Sys2Proof.Machine

section References

variable {s t : State}

/-! #### Sums over the endpoints -/

/-- The sum of a weight over the endpoints of a slot. -/
def slotSum (w : Endpoint → Nat) : Option Channel → Nat
  | none => 0
  | some ch => (ch.members.map w).sum

/-- The sum of a weight over every endpoint. -/
def State.tally (s : State) (w : Endpoint → Nat) : Nat := total (fun c => slotSum w c.channel) s.conduits

theorem endpoints_sum (s : State) (w : Endpoint → Nat) : (s.endpoints.map w).sum = s.tally w := by
  unfold State.endpoints State.tally total
  induction s.conduits.toList with
  | nil => rfl
  | cons c l ih =>
    rw [List.flatMap_cons, List.map_append, List.sum_append, ih, List.map_cons, List.sum_cons]
    cases c.channel <;> rfl

/-- The entries of a delivery queue that name a descriptor. -/
def queueWeight (h : Handle) (e : Endpoint) : Nat := e.queue.count h

/-- The holds of an endpoint that name a descriptor. -/
def holdWeight (h : Handle) (e : Endpoint) : Nat := e.holdsOf h

theorem State.queueEntries_eq (s : State) (h : Handle) : s.queueEntries h = s.tally (queueWeight h) := endpoints_sum s _

theorem State.holdEntries_eq (s : State) (h : Handle) : s.holdEntries h = s.tally (holdWeight h) := endpoints_sum s _

theorem State.tally_congr {w : Endpoint → Nat} (h : ∀ n, slotSum w (t.channel n) = slotSum w (s.channel n)) :
    t.tally w = s.tally w :=
  total_eq_of_getElem (fun i hi => h ⟨i, hi⟩)

/-- One slot replaced: its old entries go and its new ones come. -/
theorem State.tally_update {w : Endpoint → Nat} {n : ConduitNo} (h : ∀ m, m ≠ n → t.channel m = s.channel m) :
    t.tally w + slotSum w (s.channel n) = s.tally w + slotSum w (t.channel n) :=
  total_update (w := fun c : Conduit => slotSum w c.channel) n.val n.isLt (fun i hi hne =>
    congrArg (slotSum w) (h ⟨i, hi⟩ (fun e => hne (congrArg Fin.val e))))

theorem le_slotSum {w : Endpoint → Nat} {ch : Channel} {e : Endpoint} (he : e ∈ ch.members) :
    w e ≤ slotSum w (some ch) :=
  List.single_le_sum (fun _ _ => Nat.zero_le _) _ (List.mem_map_of_mem he)

theorem slotSum_le_tally (w : Endpoint → Nat) (n : ConduitNo) : slotSum w (s.channel n) ≤ s.tally w :=
  le_total (fun c : Conduit => slotSum w c.channel) s.conduits n.val n.isLt

theorem le_tally {w : Endpoint → Nat} {n : ConduitNo} {ch : Channel} {e : Endpoint} (hc : s.channel n = some ch)
    (he : e ∈ ch.members) : w e ≤ s.tally w :=
  (le_slotSum he).trans (hc ▸ slotSum_le_tally w n)

theorem slotSum_eq_zero {w : Endpoint → Nat} {ch : Channel} (h : ∀ e ∈ ch.members, w e = 0) :
    slotSum w (some ch) = 0 := by
  refine List.sum_eq_zero (fun x hx => ?_)
  obtain ⟨e, he, rfl⟩ := List.mem_map.1 hx
  exact h e he

/-- One member's endpoint changed. -/
theorem slotSum_updateEndpoint {w : Endpoint → Nat} {ch : Channel} {e : Endpoint} (f : Endpoint → Endpoint)
    (hn : ch.memberPorts.Nodup) (he : e ∈ ch.members) :
    slotSum w (some (ch.updateEndpoint e.port f)) + w e = slotSum w (some ch) + w (f e) := by
  have key : ∀ l : List Endpoint, (l.map (fun x => x.port)).Nodup → e ∈ l →
      ((l.map (fun x => if x.port = e.port then f x else x)).map w).sum + w e = (l.map w).sum + w (f e) := by
    intro l
    induction l with
    | nil => intro _ h; cases h
    | cons a l ih =>
      intro hd hm
      rw [List.map_cons, List.nodup_cons] at hd
      simp only [List.map_cons, List.sum_cons]
      rcases List.mem_cons.1 hm with rfl | hm
      · have hrest : l.map (fun x => if x.port = e.port then f x else x) = l := by
          refine (List.map_congr_left (fun x hx => if_neg (fun hp => hd.1 ?_))).trans (List.map_id l)
          exact List.mem_map.2 ⟨x, hx, hp⟩
        rw [hrest, if_pos rfl]
        omega
      · have hne : a.port ≠ e.port := fun hp => hd.1 (List.mem_map.2 ⟨e, hm, hp.symm⟩)
        have := ih hd.2 hm
        rw [if_neg hne]
        omega
  exact key ch.members hn he

/-- One member's endpoint removed. -/
theorem slotSum_removeEndpoint {w : Endpoint → Nat} {ch : Channel} {e : Endpoint} (hn : ch.memberPorts.Nodup)
    (he : e ∈ ch.members) :
    slotSum w (some { ch with members := ch.members.filter (fun x => x.port != e.port) }) + w e =
      slotSum w (some ch) := by
  have key : ∀ l : List Endpoint, (l.map (fun x => x.port)).Nodup → e ∈ l →
      ((l.filter (fun x => x.port != e.port)).map w).sum + w e = (l.map w).sum := by
    intro l
    induction l with
    | nil => intro _ h; cases h
    | cons a l ih =>
      intro hd hm
      rw [List.map_cons, List.nodup_cons] at hd
      rcases List.mem_cons.1 hm with rfl | hm
      · have hrest : l.filter (fun x => x.port != e.port) = l := by
          rw [List.filter_eq_self]
          intro x hx
          simp only [bne_iff_ne, ne_eq]
          exact fun hp => hd.1 (List.mem_map.2 ⟨x, hx, hp⟩)
        rw [List.filter_cons_of_neg (by simp), hrest, List.map_cons, List.sum_cons]
        omega
      · have hne : a.port ≠ e.port := fun hp => hd.1 (List.mem_map.2 ⟨e, hm, hp.symm⟩)
        have := ih hd.2 hm
        rw [List.filter_cons_of_pos (by simpa using hne), List.map_cons, List.sum_cons, List.map_cons, List.sum_cons]
        omega
  exact key ch.members hn he

/-! #### What every operation keeps throughout -/

/-- The slots of the law of the conduits as far as the references need it: members on distinct ports, and nothing queued
or held in an offer. -/
structure Tidy (s : State) : Prop where
  distinct : ∀ n ch, s.channel n = some ch → ch.memberPorts.Nodup
  idle : ∀ n ch d, s.channel n = some ch → ch.stage = .offered d → ∀ e ∈ ch.members, e.queue = [] ∧ e.holds = []

theorem ConduitLaw.tidy (h : ConduitLaw s) : Tidy s where
  distinct n ch hc := by
    have hp := (h n ch hc).members.2
    exact List.Nodup.of_map _ (hp.imp (fun hlt => Nat.ne_of_lt hlt))
  idle n ch d hc hd e he := by
    obtain ⟨hq, hh, -⟩ := ((h n ch hc).offered d hd).2.2 e he
    exact ⟨hq, hh⟩

/-- What an endpoint queues or holds names its conduit, and a hold carries its segment's sequence. -/
structure Named (s : State) : Prop where
  queued : ∀ n ch e h g, s.channel n = some ch → e ∈ ch.members → h ∈ e.queue → s.segment h = some g →
    g.conduit = some n
  held : ∀ n ch e d g q r, s.channel n = some ch → e ∈ ch.members → d ∈ e.holds → s.segment d.handle = some g →
    g.stage = .live q r → g.conduit = some n ∧ q = d.sequence

/-- The FILLING descriptors are the fills of these ports, each of its producer. -/
structure FillsAre (s : State) (F : Port → Option Handle) : Prop where
  filling : ∀ h g, s.segment h = some g → g.stage = .filling → F g.producer = some h
  filled : ∀ p h, F p = some h → ∃ g, s.segment h = some g ∧ g.stage = .filling ∧ g.producer = p

/-- What every operation inside a row keeps. -/
structure Sound (s : State) (F : Port → Option Handle) : Prop where
  tidy : Tidy s
  named : Named s
  fills : FillsAre s F

/-- A slot's use after an operation that takes members or entries away, or changes neither. -/
structure Narrower (ch ch' : Channel) : Prop where
  ports : List.Sublist ch'.memberPorts ch.memberPorts
  entries : MembersShrink ch.members ch'.members
  offered : ∀ d, ch'.stage = .offered d → ch.stage = .offered d

theorem Narrower.refl (ch : Channel) : Narrower ch ch := ⟨.refl _, .refl _, fun _ h => h⟩

/-- The same members, and an offer only where there was one. -/
theorem Narrower.of_members {ch ch' : Channel} (hm : ch'.members = ch.members)
    (ho : ∀ d, ch'.stage = .offered d → ch.stage = .offered d) : Narrower ch ch' :=
  ⟨by rw [Channel.memberPorts, hm, Channel.memberPorts], by rw [hm]; exact .refl _, ho⟩

theorem Stage.mapFlow_offered {f : Flow → Flow} {st : Stage} {d : Tick} (h : st.mapFlow f = .offered d) :
    st = .offered d := by
  cases st <;> first | exact h | cases h

theorem Narrower.mapFlow (ch : Channel) (f : Flow → Flow) : Narrower ch (ch.mapFlow f) :=
  .of_members rfl (fun _ h => Stage.mapFlow_offered h)

theorem Channel.updateEndpoint_ports {ch : Channel} {p : Port} {f : Endpoint → Endpoint}
    (hf : ∀ e, (f e).port = e.port) : (ch.updateEndpoint p f).memberPorts = ch.memberPorts := by
  simp only [Channel.memberPorts, Channel.updateEndpoint, List.map_map]
  refine List.map_congr_left (fun x _ => ?_)
  simp only [Function.comp_apply]
  split
  · exact hf x
  · rfl

theorem Narrower.updateEndpoint (ch : Channel) {p : Port} {f : Endpoint → Endpoint} (hp : ∀ e, (f e).port = e.port)
    (hf : ∀ e, List.Sublist (f e).queue e.queue ∧ List.Sublist (f e).holds e.holds) :
    Narrower ch (ch.updateEndpoint p f) :=
  ⟨by rw [Channel.updateEndpoint_ports hp], .update hf, fun _ h => h⟩

theorem Narrower.filter (ch : Channel) (c : Endpoint → Bool) :
    Narrower ch { ch with members := ch.members.filter c } :=
  ⟨List.filter_sublist.map _, .filter _ _, fun _ h => h⟩

theorem Tidy.narrow (h : Tidy s)
    (hch : ∀ n ch', t.channel n = some ch' → ∃ ch, s.channel n = some ch ∧ Narrower ch ch') : Tidy t where
  distinct n ch' hc' := by
    obtain ⟨ch, hc, hn⟩ := hch n ch' hc'
    exact (h.distinct n ch hc).sublist hn.ports
  idle n ch' d hc' hd e' he' := by
    obtain ⟨ch, hc, hn⟩ := hch n ch' hc'
    obtain ⟨e, he, hq, hh⟩ := hn.entries e' he'
    obtain ⟨hq0, hh0⟩ := h.idle n ch d hc (hn.offered d hd) e he
    rw [hq0, List.sublist_nil] at hq
    rw [hh0, List.sublist_nil] at hh
    exact ⟨hq, hh⟩

theorem Sound.narrow {F : Port → Option Handle} (h : Sound s F)
    (hch : ∀ n ch', t.channel n = some ch' → ∃ ch, s.channel n = some ch ∧ Narrower ch ch')
    (hseg : ∀ k g', t.segment k = some g' → ∃ g, s.segment k = some g ∧ SameRole g g' ∧
      ∀ n, t.channel n ≠ none → g.conduit = some n → g'.conduit = some n)
    (hfill : ∀ k g, s.segment k = some g → g.stage = .filling →
      ∃ g', t.segment k = some g' ∧ g'.stage = .filling ∧ g'.producer = g.producer) : Sound t F where
  tidy := h.tidy.narrow hch
  named :=
    { queued := fun n ch' e' k g' hc' he' hk hg' => by
        obtain ⟨ch, hc, hn⟩ := hch n ch' hc'
        obtain ⟨e, he, hq, -⟩ := hn.entries e' he'
        obtain ⟨g, hg, -, hcon⟩ := hseg k g' hg'
        exact hcon n (by rw [hc']; simp) (h.named.queued n ch e k g hc he (hq.subset hk) hg)
      held := fun n ch' e' d g' q r hc' he' hd hg' hst' => by
        obtain ⟨ch, hc, hn⟩ := hch n ch' hc'
        obtain ⟨e, he, -, hh⟩ := hn.entries e' he'
        obtain ⟨g, hg, hrole, hcon⟩ := hseg d.handle g' hg'
        obtain ⟨r0, hst⟩ := hrole.live q r hst'
        obtain ⟨h1, h2⟩ := h.named.held n ch e d g q r0 hc he (hh.subset hd) hg hst
        exact ⟨hcon n (by rw [hc']; simp) h1, h2⟩ }
  fills :=
    { filling := fun k g' hg' hst' => by
        obtain ⟨g, hg, hrole, -⟩ := hseg k g' hg'
        rw [hrole.producer]
        exact h.fills.filling k g hg (hrole.filling hst')
      filled := fun p k hk => by
        obtain ⟨g, hg, hst, hp⟩ := h.fills.filled p k hk
        obtain ⟨g', hg', hst', hp'⟩ := hfill k g hg hst
        exact ⟨g', hg', hst', hp'.trans hp⟩ }

theorem SameStore.segment (h : SameStore s t) (k : Handle) : t.segment k = s.segment k :=
  State.segment_ext (by rw [h.pool]) k

theorem SameStore.channel (h : SameStore s t) (n : ConduitNo) : t.channel n = s.channel n :=
  State.channel_ext h.conduits n

theorem Sound.store {F : Port → Option Handle} (h : Sound s F) (hs : SameStore s t) : Sound t F :=
  h.narrow (fun n ch hc => ⟨ch, State.channel_ext hs.conduits n ▸ hc, .refl ch⟩)
    (fun k g hg => ⟨g, hs.segment k ▸ hg, .refl g, fun _ _ h => h⟩)
    (fun k g hg hst => ⟨g, (hs.segment k).trans hg, hst, rfl⟩)

/-- A slot's use narrowed. -/
theorem Sound.setChannel {F : Port → Option Handle} (h : Sound s F) {n : ConduitNo} {ch ch' : Channel}
    (hc : s.channel n = some ch) (hn : Narrower ch ch') : Sound (s.setChannel n (some ch')) F :=
  h.narrow (fun m x hx => by
      rw [State.setChannel_channel] at hx
      split at hx
      · rename_i e; cases hx; exact ⟨ch, e ▸ hc, hn⟩
      · exact ⟨x, hx, .refl x⟩)
    (fun k g hg => ⟨g, hg, .refl g, fun _ _ h => h⟩) (fun k g hg hst => ⟨g, hg, hst, rfl⟩)

theorem Segment.claimed_filling {c : Claim} {g : Segment} (h : g.stage = .filling) : g.claimed c = some g := by
  simp [Segment.claimed, h]

theorem Sound.claim {F : Port → Option Handle} (h : Sound s F) (c : Claim) (k : Handle) : Sound (s.claim c k) F :=
  h.narrow (fun n ch' hc' => by
      rw [State.claim_channel] at hc'
      obtain ⟨ch, hc, rfl⟩ := Option.map_eq_some_iff.1 hc'
      exact ⟨ch, hc, .mapFlow ch _⟩)
    (fun j g' hg' => by
      rw [State.claim_segment] at hg'
      split at hg'
      · rename_i e
        obtain ⟨g, hg, hcl⟩ := Option.bind_eq_some_iff.1 hg'
        obtain ⟨hcon, hrole⟩ := Segment.claimed_role hcl
        exact ⟨g, e ▸ hg, hrole, fun n _ hn => hcon.trans hn⟩
      · exact ⟨g', hg', .refl g', fun _ _ h => h⟩)
    (fun j g hg hst => by
      rw [State.claim_segment]
      by_cases e : j = k
      · rw [if_pos e, ← e, hg, Option.bind_some, Segment.claimed_filling hst]
        exact ⟨g, rfl, hst, rfl⟩
      · rw [if_neg e]; exact ⟨g, hg, hst, rfl⟩)

theorem Sound.claims {F : Port → Option Handle} (h : Sound s F) (c : Claim) (hs : List Handle) :
    Sound (s.claims c hs) F := by
  induction hs generalizing s with
  | nil => exact h
  | cons k hs ih => exact ih (h.claim c k)

theorem Sound.teardown {F : Port → Option Handle} (h : Sound s F) (m : ConduitNo) : Sound (s.teardown m) F :=
  h.narrow (fun n ch hc => by
      rw [State.teardown_channel] at hc
      split at hc
      · cases hc
      · exact ⟨ch, hc, .refl ch⟩)
    (fun k g' hg' => by
      rw [State.teardown_segment] at hg'
      obtain ⟨g, hg, rfl⟩ := Option.map_eq_some_iff.1 hg'
      refine ⟨g, hg, ⟨by simp, by simp, fun q r hst => ⟨r, by simpa using hst⟩⟩, fun n hn hcon => ?_⟩
      rw [State.teardown_channel] at hn
      exact (g.detachFrom_conduit_eq_some m n).2 ⟨hcon, fun e => hn (if_pos e)⟩)
    (fun k g hg hst => ⟨g.detachFrom m, by rw [State.teardown_segment, hg]; rfl, by simpa using hst, by simp⟩)

/-! #### Counts -/

/-- A LIVE descriptor has these tallies, at least one reference among them, and what is not LIVE has none. -/
structure Counted (s : State) (R : Handle → Refs) : Prop where
  live : ∀ h g q r, s.segment h = some g → g.stage = .live q r → r = R h ∧ 1 ≤ (R h).total
  others : ∀ h, (∀ g q r, s.segment h = some g → g.stage ≠ .live q r) → R h = ⟨0, 0, 0⟩

/-- The counts of the entries and holds that name a descriptor, with this count of transfers. -/
def State.refsWith (s : State) (T : Handle → Nat) (h : Handle) : Refs := ⟨s.queueEntries h, s.holdEntries h, T h⟩

theorem Refs.eq_zero_of_total {r : Refs} (h : r.total = 0) : r = ⟨0, 0, 0⟩ := by
  obtain ⟨q, hd, x⟩ := r
  simp only [Refs.total] at h
  simp only [Refs.mk.injEq]
  omega

/-- What is referred to is LIVE. -/
theorem Counted.is_live {R : Handle → Refs} (hc : Counted s R) {h : Handle} (hr : 1 ≤ (R h).total) :
    ∃ g q, s.segment h = some g ∧ g.stage = .live q (R h) := by
  by_contra hno
  push Not at hno
  have := hc.others h (fun g q r hg hst => hno g q hg (by rw [hst, (hc.live h g q r hg hst).1]))
  rw [this] at hr
  simp [Refs.total] at hr

/-- The counts, where descriptors are LIVE as before with the tallies they had. -/
theorem Counted.of_stages {R : Handle → Refs} (hc : Counted s R)
    (h : ∀ k, (t.segment k).map Segment.stage = (s.segment k).map Segment.stage) : Counted t R where
  live k g q r hg hst := by
    have := h k
    rw [hg, Option.map_some, eq_comm, Option.map_eq_some_iff] at this
    obtain ⟨g', hg', hst'⟩ := this
    exact hc.live k g' q r hg' (hst'.trans hst)
  others k hno := hc.others k (fun g q r hg hst => by
    have := h k
    rw [hg, Option.map_some, Option.map_eq_some_iff] at this
    obtain ⟨g', hg', hst'⟩ := this
    exact hno g' q r hg' (hst'.trans hst))

/-- A claim on a descriptor that is referred to changes its count by the table of R13. -/
theorem Counted.claim {R : Handle → Refs} (hc : Counted s R) (c : Claim) {h : Handle} (hr : 1 ≤ (R h).total) :
    Counted (s.claim c h) (fun k => if k = h then c.change (R h) else R k) := by
  obtain ⟨g, q, hg, hst⟩ := hc.is_live hr
  have hself : (s.claim c h).segment h =
      if (c.change (R h)).total = 0 then none else some { g with stage := .live q (c.change (R h)) } := by
    rw [State.claim_segment, if_pos rfl, hg, Option.bind_some, Segment.claimed, hst]
  have hother : ∀ k, k ≠ h → (s.claim c h).segment k = s.segment k := fun k hk => by
    rw [State.claim_segment, if_neg hk]
  constructor
  · intro k g' q' r' hg' hst'
    by_cases hk : k = h
    · subst hk
      rw [hself] at hg'
      split at hg'
      · cases hg'
      · rename_i ht
        cases hg'
        simp only [SegmentStage.live.injEq] at hst'
        rw [if_pos rfl]
        exact ⟨hst'.2.symm, Nat.pos_of_ne_zero ht⟩
    · rw [if_neg hk]
      exact hc.live k g' q' r' (hother k hk ▸ hg') hst'
  · intro k hno
    by_cases hk : k = h
    · subst hk
      rw [if_pos rfl]
      by_cases ht : (c.change (R k)).total = 0
      · exact Refs.eq_zero_of_total ht
      · exact absurd rfl (hno { g with stage := .live q (c.change (R k)) } q (c.change (R k))
          (by rw [hself, if_neg ht]))
    · rw [if_neg hk]
      exact hc.others k (fun g' q' r' hg' => hno g' q' r' ((hother k hk).trans hg'))

/-- Claims that each take a queue reference away. -/
theorem Counted.claims_queue {R R' : Handle → Refs} {c : Claim} (hcl : ∀ r, c.change r = { r with queue := r.queue - 1 })
    {hs : List Handle} (hc : Counted s R)
    (hR : ∀ h, R h = { R' h with queue := (R' h).queue + hs.count h }) : Counted (s.claims c hs) R' := by
  induction hs generalizing s R with
  | nil =>
    have : R = R' := funext (fun h => by rw [hR h]; rfl)
    exact this ▸ hc
  | cons k hs ih =>
    have hk : 1 ≤ (R k).total := by rw [hR k]; simp [Refs.total]; omega
    refine ih (R := fun h => if h = k then c.change (R k) else R h) (hc.claim c hk) (fun h => ?_)
    by_cases e : h = k
    · subst e; simp [hcl, hR h, ← Nat.add_assoc]
    · have : k ≠ h := fun x => e x.symm
      simp [e, hR h, List.count_cons_of_ne this]

/-- Claims that each take a hold away. -/
theorem Counted.claims_hold {R R' : Handle → Refs} {c : Claim} (hcl : ∀ r, c.change r = { r with hold := r.hold - 1 })
    {hs : List Handle} (hc : Counted s R)
    (hR : ∀ h, R h = { R' h with hold := (R' h).hold + hs.count h }) : Counted (s.claims c hs) R' := by
  induction hs generalizing s R with
  | nil =>
    have : R = R' := funext (fun h => by rw [hR h]; rfl)
    exact this ▸ hc
  | cons k hs ih =>
    have hk : 1 ≤ (R k).total := by rw [hR k]; simp [Refs.total]; omega
    refine ih (R := fun h => if h = k then c.change (R k) else R h) (hc.claim c hk) (fun h => ?_)
    by_cases e : h = k
    · subst e; simp [hcl, hR h, ← Nat.add_assoc]
    · have : k ≠ h := fun x => e x.symm
      simp [e, hR h, List.count_cons_of_ne this]

/-- The law of the references between rows' operations: with these transfers and fills in flight. -/
structure Referred (T : Handle → Nat) (F : Port → Option Handle) (s : State) : Prop where
  sound : Sound s F
  counted : Counted s (s.refsWith T)

theorem ReferenceLaw.referred (hl : ReferenceLaw s) (ht : Tidy s) : Referred s.transfersOf s.fillHandle? s where
  sound :=
    { tidy := ht
      named :=
        { queued := fun n ch e h g hc he hh hg => by
            obtain ⟨g', hg', hn⟩ := hl.queued n ch e h hc he hh
            rw [hg] at hg'; cases hg'; exact hn
          held := fun n ch e d g q r hc he hd hg hst => by
            obtain ⟨g', r', hg', hn, hst'⟩ := hl.held n ch e d hc he hd
            rw [hg] at hg'
            cases hg'
            rw [hst] at hst'
            simp only [SegmentStage.live.injEq] at hst'
            exact ⟨hn, hst'.1⟩ }
      fills := ⟨hl.filling, hl.filled⟩ }
  counted :=
    { live := fun h g q r hg hst => by
        obtain ⟨h1, h2, h3, h4⟩ := hl.live h g q r hg hst
        have : r = s.refsWith s.transfersOf h := by
          cases r
          simp only [State.refsWith, Refs.mk.injEq]
          exact ⟨h1, h2, h3⟩
        exact ⟨this, this ▸ h4⟩
      others := fun h hno => by
        obtain ⟨h1, h2, h3⟩ := hl.others h hno
        simp [State.refsWith, h1, h2, h3] }

theorem Referred.law (h : Referred s.transfersOf s.fillHandle? s) : ReferenceLaw s where
  live k g q r hg hst := by
    obtain ⟨hr, h1⟩ := h.counted.live k g q r hg hst
    refine ⟨by rw [hr]; rfl, by rw [hr]; rfl, by rw [hr]; rfl, hr ▸ h1⟩
  others k hno := by
    have := h.counted.others k hno
    simpa [State.refsWith] using this
  queued n ch e k hc he hk := by
    have hcount : 1 ≤ s.queueEntries k := by
      rw [State.queueEntries_eq]
      have h1 : 1 ≤ queueWeight k e := List.count_pos_iff.2 hk
      exact h1.trans (le_tally hc he)
    obtain ⟨g, q, hg, -⟩ := h.counted.is_live (h := k) (by simp only [State.refsWith, Refs.total]; omega)
    exact ⟨g, hg, h.sound.named.queued n ch e k g hc he hk hg⟩
  held n ch e d hc he hd := by
    have hcount : 1 ≤ s.holdEntries d.handle := by
      rw [State.holdEntries_eq]
      have h1 : 1 ≤ holdWeight d.handle e := List.countP_pos_iff.2 ⟨d, hd, by simp⟩
      exact h1.trans (le_tally hc he)
    obtain ⟨g, q, hg, hst⟩ := h.counted.is_live (h := d.handle) (by simp only [State.refsWith, Refs.total]; omega)
    obtain ⟨hn, hq⟩ := h.sound.named.held n ch e d g q _ hc he hd hg hst
    exact ⟨g, _, hg, hn, hq ▸ hst⟩
  filling := h.sound.fills.filling
  filled := h.sound.fills.filled

end References

end Sys2Proof.Machine


/-! ### The operations that keep the references -/

namespace Sys2Proof.Machine

section Operations

variable {s t : State} {T : Handle → Nat} {F : Port → Option Handle} {n : ConduitNo} {p : Port}

theorem State.refsWith_congr (h : ∀ (w : Endpoint → Nat), t.tally w = s.tally w) (T : Handle → Nat) :
    t.refsWith T = s.refsWith T := by
  funext k
  simp only [State.refsWith, State.queueEntries_eq, State.holdEntries_eq, h]

/-- Claims leave every endpoint's entries as they are. -/
theorem State.claim_tally (s : State) (c : Claim) (h : Handle) (w : Endpoint → Nat) :
    (s.claim c h).tally w = s.tally w :=
  State.tally_congr (fun n => by
    rw [State.claim_channel]
    cases s.channel n <;> rfl)

theorem State.claims_tally (s : State) (c : Claim) (hs : List Handle) (w : Endpoint → Nat) :
    (s.claims c hs).tally w = s.tally w := by
  induction hs generalizing s with
  | nil => rfl
  | cons h hs ih => exact (ih (s.claim c h)).trans (s.claim_tally c h w)

/-- Claims leave every slot's members as they are. -/
theorem State.claims_members (s : State) (c : Claim) (hs : List Handle) (n : ConduitNo) :
    ((s.claims c hs).channel n).map Channel.members = (s.channel n).map Channel.members := by
  induction hs generalizing s with
  | nil => rfl
  | cons h hs ih =>
    refine (ih (s.claim c h)).trans ?_
    rw [State.claim_channel, Option.map_map]
    rfl

theorem Referred.store (h : Referred T F s) (hs : SameStore s t) : Referred T F t where
  sound := h.sound.store hs
  counted := by
    rw [State.refsWith_congr (s := s) (fun w => State.tally_congr (fun n => by rw [hs.channel]))]
    exact h.counted.of_stages (fun k => by rw [hs.segment])

/-- A slot's use changed in nothing that is queued or held. -/
theorem Referred.setChannel (h : Referred T F s) {ch ch' : Channel} (hc : s.channel n = some ch)
    (hn : Narrower ch ch') (hw : ∀ w : Endpoint → Nat, (∀ e f : Endpoint, e.queue = f.queue → e.holds = f.holds → w e = w f) →
      slotSum w (some ch') = slotSum w (some ch)) : Referred T F (s.setChannel n (some ch')) where
  sound := h.sound.setChannel hc hn
  counted := by
    have key : ∀ w : Endpoint → Nat, (∀ e f : Endpoint, e.queue = f.queue → e.holds = f.holds → w e = w f) →
        (s.setChannel n (some ch')).tally w = s.tally w := fun w hww => State.tally_congr (fun m => by
      rw [State.setChannel_channel]
      split
      · rename_i e; rw [e, hc, hw w hww]
      · rfl)
    have hrefs : (s.setChannel n (some ch')).refsWith T = s.refsWith T := by
      funext k
      simp only [State.refsWith, State.queueEntries_eq, State.holdEntries_eq]
      rw [key _ (fun e f hq _ => by simp [queueWeight, hq]),
        key _ (fun e f _ hh => by simp [holdWeight, Endpoint.holdsOf, hh])]
    rw [hrefs]
    exact h.counted.of_stages (fun _ => rfl)

/-- A slot's use with the same members. -/
theorem Referred.setChannel_members (h : Referred T F s) {ch ch' : Channel} (hc : s.channel n = some ch)
    (hm : ch'.members = ch.members) (ho : ∀ d, ch'.stage = .offered d → ch.stage = .offered d) :
    Referred T F (s.setChannel n (some ch')) :=
  h.setChannel hc (.of_members hm ho) (fun w _ => by simp only [slotSum, hm])

/-- One endpoint changed in its answer or its lapsed list. -/
theorem slotSum_updateEndpoint_same {w : Endpoint → Nat} {ch : Channel} {f : Endpoint → Endpoint}
    (hf : ∀ e, w (f e) = w e) : slotSum w (some (ch.updateEndpoint p f)) = slotSum w (some ch) := by
  simp only [slotSum, Channel.updateEndpoint, List.map_map]
  congr 1
  refine List.map_congr_left (fun x _ => ?_)
  simp only [Function.comp_apply]
  split
  · exact hf x
  · rfl

theorem Referred.updateEndpoint_same (h : Referred T F s) {f : Endpoint → Endpoint}
    (hp : ∀ e, (f e).port = e.port) (hq : ∀ e, (f e).queue = e.queue) (hh : ∀ e, (f e).holds = e.holds) :
    Referred T F (s.updateEndpoint n p f) := by
  unfold State.updateEndpoint
  cases hc : s.channel n with
  | none => rwa [s.updateChannel_of_none n hc]
  | some ch =>
    rw [s.updateChannel_of_some n hc]
    exact h.setChannel hc (.updateEndpoint ch hp (fun e => ⟨by rw [hq e], by rw [hh e]⟩))
      (fun w hw => slotSum_updateEndpoint_same (fun e => hw _ _ (hq e) (hh e)))

/-- A teardown of a slot that queues and holds nothing. -/
theorem Referred.teardown (h : Referred T F s)
    (he : ∀ ch, s.channel n = some ch → ∀ e ∈ ch.members, e.queue = [] ∧ e.holds = []) :
    Referred T F (s.teardown n) where
  sound := h.sound.teardown n
  counted := by
    have key : ∀ w : Endpoint → Nat, (∀ e : Endpoint, e.queue = [] → e.holds = [] → w e = 0) →
        (s.teardown n).tally w = s.tally w := fun w hw => State.tally_congr (fun m => by
      rw [State.teardown_channel]
      split
      · rename_i e
        rw [e]
        cases hc : s.channel n with
        | none => rfl
        | some ch => exact (slotSum_eq_zero (fun e hm => hw e (he ch hc e hm).1 (he ch hc e hm).2)).symm
      · rfl)
    have hrefs : (s.teardown n).refsWith T = s.refsWith T := by
      funext k
      simp only [State.refsWith, State.queueEntries_eq, State.holdEntries_eq]
      rw [key _ (fun e hq _ => by simp [queueWeight, hq]),
        key _ (fun e _ hh => by simp [holdWeight, Endpoint.holdsOf, hh])]
    rw [hrefs]
    refine h.counted.of_stages (fun k => ?_)
    rw [State.teardown_segment, Option.map_map]
    congr 1
    funext g
    exact g.detachFrom_stage n

/-- The claims of one row take queue entries or holds away. -/
def Claim.takesQueue (c : Claim) : Prop := ∀ r, c.change r = { r with queue := r.queue - 1 }
def Claim.takesHold (c : Claim) : Prop := ∀ r, c.change r = { r with hold := r.hold - 1 }

/-- Queue entries and holds are taken from a slot's use, and their claims presented. -/
theorem Referred.drop (h : Referred T F s) {ch ch' : Channel} {c1 c2 : Claim} {qs hs : List Handle}
    (hc : s.channel n = some ch) (hn : Narrower ch ch') (h1 : c1.takesQueue) (h2 : c2.takesHold)
    (hq : ∀ k, slotSum (queueWeight k) (some ch) = slotSum (queueWeight k) (some ch') + qs.count k)
    (hh : ∀ k, slotSum (holdWeight k) (some ch) = slotSum (holdWeight k) (some ch') + hs.count k)
    (ht : SameStore (s.setChannel n (some ch')) t) : Referred T F ((t.claims c1 qs).claims c2 hs) where
  sound := (((h.sound.setChannel hc hn).store ht).claims c1 qs).claims c2 hs
  counted := by
    have htally : ∀ w, t.tally w + slotSum w (some ch) = s.tally w + slotSum w (some ch') := fun w => by
      have hsame : t.tally w = (s.setChannel n (some ch')).tally w :=
        State.tally_congr (fun m => by rw [ht.channel])
      have := State.tally_update (s := s) (t := s.setChannel n (some ch')) (w := w) (n := n)
        (fun m hm => State.setChannel_channel_ne _ _ hm)
      rw [State.setChannel_channel_self, hc] at this
      omega
    have hstart : Counted t (s.refsWith T) :=
      h.counted.of_stages (fun k => by rw [ht.segment]; rfl)
    have hmid : Counted (t.claims c1 qs) (fun k => ⟨t.queueEntries k, s.holdEntries k, T k⟩) :=
      hstart.claims_queue h1 (fun k => by
        have := htally (queueWeight k)
        have := hq k
        simp only [State.refsWith, Refs.mk.injEq, and_self, and_true, State.queueEntries_eq]
        omega)
    have hend : Counted ((t.claims c1 qs).claims c2 hs) (t.refsWith T) :=
      hmid.claims_hold h2 (fun k => by
        have := htally (holdWeight k)
        have := hh k
        simp only [State.refsWith, Refs.mk.injEq, true_and, and_true, State.holdEntries_eq]
        omega)
    rwa [State.refsWith_congr (s := t) (fun w => by rw [State.claims_tally, State.claims_tally])]

theorem holdWeight_map (k : Handle) (e : Endpoint) : holdWeight k e = (e.holds.map (fun d => d.handle)).count k := by
  simp only [holdWeight, Endpoint.holdsOf, List.count, List.countP_map]
  rfl

/-! #### The ends of a conduit -/

theorem Channel.drained_iff {ch : Channel} :
    ch.drained = true ↔ ∀ e ∈ ch.members, e.queue = [] ∧ e.holds = [] := by
  simp [Channel.drained, List.all_eq_true]

theorem Referred.appendEvents (h : Referred T F s) (ps : List Port) (e : Event) :
    Referred T F (s.appendEvents ps e) := h.store (s.appendEvents_store ps e)

theorem Referred.endConduit (h : Referred T F s) (r : EndReason)
    (he : ∀ ch, s.channel n = some ch → ∀ e ∈ ch.members, e.queue = [] ∧ e.holds = []) :
    Referred T F (s.endConduit n r) := by
  unfold State.endConduit
  split
  · exact h
  · exact (h.appendEvents _ _).teardown (fun x hx => he x (by simpa using hx))

theorem Referred.drainCheck (h : Referred T F s) (n : ConduitNo) : Referred T F (s.drainCheck n) := by
  unfold State.drainCheck
  split
  · exact h
  · rename_i ch hc
    split
    · split
      · rename_i hd
        refine h.endConduit _ (fun x hx => ?_)
        rw [hc] at hx
        cases hx
        exact Channel.drained_iff.1 hd
      · exact h
    · exact h

theorem Referred.failOffer (h : Referred T F s) {ch : Channel} {d : Tick} (hc : s.channel n = some ch)
    (hd : ch.stage = .offered d) (r : OfferResult) (ps : List Port) : Referred T F (s.failOffer n r ps) :=
  (h.appendEvents ps _).teardown (fun x hx => by
    rw [State.appendEvents_channel, hc] at hx
    cases hx
    exact h.sound.tidy.idle n ch d hc hd)

/-! #### Members and holds -/

theorem Referred.removeMember (h : Referred T F s) (n : ConduitNo) (p : Port) (r : GoneReason) :
    Referred T F (s.removeMember n p r) := by
  unfold State.removeMember
  split
  · exact h
  · rename_i ch hc
    split
    · exact h
    · rename_i e he
      obtain ⟨hm, rfl⟩ := Channel.endpoint?_some he
      have hnd := h.sound.tidy.distinct n ch hc
      have dropped := h.drop (c1 := .removeQueued) (c2 := .removeHeld) (qs := e.queue)
        (hs := e.holds.map (fun d => d.handle)) hc (.filter ch (fun x => x.port != e.port)) (fun _ => rfl) (fun _ => rfl)
        (fun k => (slotSum_removeEndpoint hnd hm).symm)
        (fun k => by rw [← slotSum_removeEndpoint hnd hm, holdWeight_map])
        (State.appendEvents_store _ (if ch.producerPresent then [ch.producer] else []) (.consumerGone n e.port r))
      by_cases hl : ch.members.all (fun x => x.port == e.port) = true
      · simp only [hl, if_true]
        refine dropped.endConduit _ (fun x hx => ?_)
        have hempty : ch.members.filter (fun x => x.port != e.port) = [] := by
          rw [List.filter_eq_nil_iff]
          intro y hy
          simpa using List.all_eq_true.1 hl y hy
        have hmem := congrArg (Option.map Channel.members) hx
        rw [State.claims_members, State.claims_members, State.appendEvents_channel, State.setChannel_channel_self,
          Option.map_some, Option.map_some, Option.some.injEq] at hmem
        rw [← hmem]
        simp [hempty]
      · simp only [hl]
        exact dropped.drainCheck n

theorem Endpoint.dropHold_weight {e : Endpoint} {d : Hold} (hd : d ∈ e.holds) (k : Handle) :
    holdWeight k (e.dropHold d) + [d.handle].count k = holdWeight k e := by
  simp only [holdWeight, Endpoint.holdsOf, Endpoint.dropHold]
  have hp : e.holds.Perm (d :: e.holds.erase d) := List.perm_cons_erase hd
  rw [hp.countP_eq (fun x : Hold => x.handle == k), List.countP_cons, List.count_singleton]

/-- A hold goes with its claim (R76, R78). -/
theorem Referred.dropHold (h : Referred T F s) {ch : Channel} {e : Endpoint} {d : Hold} {c : Claim}
    (hc : s.channel n = some ch) (he : ch.endpoint? p = some e) (hd : d ∈ e.holds) (hcl : c.takesHold) :
    Referred T F ((s.updateEndpoint n p (fun e => e.dropHold d)).claim c d.handle) := by
  obtain ⟨hm, rfl⟩ := Channel.endpoint?_some he
  have hnd := h.sound.tidy.distinct n ch hc
  rw [State.updateEndpoint, s.updateChannel_of_some n hc]
  refine h.drop (c1 := .flush) (c2 := c) (qs := []) (hs := [d.handle]) hc
    (.updateEndpoint ch (f := fun e => e.dropHold d) (fun _ => rfl) (fun _ => ⟨.refl _, List.erase_sublist⟩)) (fun _ => rfl) hcl
    (fun k => ?_) (fun k => ?_) (.refl _)
  · have := slotSum_updateEndpoint (w := queueWeight k) (fun e => e.dropHold d) hnd hm
    have hsame : queueWeight k (e.dropHold d) = queueWeight k e := rfl
    rw [List.count_nil]
    omega
  · have := slotSum_updateEndpoint (w := holdWeight k) (fun e => e.dropHold d) hnd hm
    have := e.dropHold_weight hd k
    omega

theorem Referred.flushMember (h : Referred T F s) {ch : Channel} {e x : Endpoint} (hc : s.channel n = some ch)
    (hx : x ∈ ch.members) (hp : x.port = e.port) (hq : x.queue = e.queue) : Referred T F (s.flushMember n e) := by
  have hnd := h.sound.tidy.distinct n ch hc
  have emptied : Referred T F ((s.updateEndpoint n e.port (fun e => { e with queue := [] })).claims .flush e.queue) := by
    rw [State.updateEndpoint, s.updateChannel_of_some n hc, ← hp, ← hq]
    refine h.drop (c1 := .flush) (c2 := .release) (qs := x.queue) (hs := []) hc
      (.updateEndpoint ch (f := fun e => { e with queue := [] }) (fun _ => rfl)
        (fun _ => ⟨List.nil_sublist _, .refl _⟩)) (fun _ => rfl) (fun _ => rfl) (fun k => ?_) (fun k => ?_) (.refl _)
    · have := slotSum_updateEndpoint (w := queueWeight k) (fun e => { e with queue := [] }) hnd hx
      have h0 : queueWeight k { x with queue := [] } = 0 := rfl
      have h1 : queueWeight k x = x.queue.count k := rfl
      omega
    · have := slotSum_updateEndpoint (w := holdWeight k) (fun e => { e with queue := [] }) hnd hx
      have h0 : holdWeight k { x with queue := [] } = holdWeight k x := rfl
      rw [List.count_nil]
      omega
  unfold State.flushMember
  by_cases he : e.queue.isEmpty = true
  · simpa [he] using emptied
  · simp only [he]
    exact emptied.store (State.appendEvent_store _ _ _)

theorem Referred.lapseHold (h : Referred T F s) (n : ConduitNo) (p : Port) (q : Half) :
    Referred T F (s.lapseHold n p q) := by
  unfold State.lapseHold
  split
  · exact h
  · rename_i d hd
    unfold State.dueHold? at hd
    split at hd
    · cases hd
    · rename_i ch hc
      split at hd
      · cases hd
      · rename_i e he
        have dropped := h.dropHold (c := .holdLapse) hc he (List.mem_of_find?_eq_some hd) (fun _ => rfl)
        have listed := dropped.updateEndpoint_same (n := n) (p := p)
          (f := fun e => { e with lapsed := appendLapsed e.lapsed q }) (fun _ => rfl) (fun _ => rfl) (fun _ => rfl)
        exact (listed.store (State.appendEvent_store _ _ _)).drainCheck n

/-! #### Offers and slots -/

theorem Referred.lapseOffer (h : Referred T F s) (n : ConduitNo) : Referred T F (s.lapseOffer n) := by
  unfold State.lapseOffer
  split
  · exact h
  · rename_i ch hc
    split
    · rename_i d hd
      split
      · exact h.failOffer hc hd _ _
      · exact h
    · exact h
    · exact h

theorem Channel.drain_offered {ch : Channel} {d : Tick} (h : ch.drain.stage = .offered d) : ch.stage = .offered d := by
  cases hs : ch.stage <;> simp [Channel.drain, hs] at h ⊢
  exact h

theorem Referred.departConduit (h : Referred T F s) (p : Port) (n : ConduitNo) :
    Referred T F (s.departConduit p n) := by
  unfold State.departConduit
  split
  · exact h
  · rename_i ch hc
    have drains : Referred T F (((s.setChannel n (some { ch.drain with producerPresent := false })).appendEvents
        ch.memberPorts (.producerGone n)).drainCheck n) :=
      ((h.setChannel_members hc (ch' := { ch.drain with producerPresent := false }) ch.drain_members
        (fun _ hd => Channel.drain_offered hd)).appendEvents _ _).drainCheck n
    split
    · split
      · rename_i d hd; exact h.failOffer hc hd _ _
      · exact drains
      · exact drains
    · split
      · exact h
      · split
        · rename_i d hd; exact h.failOffer hc hd _ _
        · exact h.removeMember n p _
        · exact h.removeMember n p _

theorem Referred.foldl {α : Type} {f : State → α → State} (hf : ∀ s a, Referred T F s → Referred T F (f s a))
    (l : List α) (h : Referred T F s) : Referred T F (l.foldl f s) := by
  induction l generalizing s with
  | nil => exact h
  | cons a l ih => exact ih (hf s a h)

theorem Referred.depart (h : Referred T F s) (p : Port) (cause : DepartureCause) (left : PortState) :
    Referred T F (s.depart p cause left) := by
  have gone := h.store (s.setPort_store p
    { s.port p with state := left, outcome := OutcomeRecord.initial, rotation := 23 })
  have slots := gone.foldl (fun s n h => h.departConduit p n) allConduits
  have attention := slots.store (State.departAttention_store _ p)
  have proposal := attention.store (State.abandonProposal_store _ p)
  exact (proposal.store (State.clearEvents_store _ p)).appendEvents _ _

theorem Referred.recordAccept (h : Referred T F s) {ch : Channel} (hc : s.channel n = some ch) (window size : Nat) :
    Referred T F (s.recordAccept n ch p window size) := by
  have answered : ∀ x : Channel, x.members =
      (ch.updateEndpoint p (fun e => { e with answer := .accepted window size })).members →
      (∀ d, x.stage = .offered d → ch.stage = .offered d) → Referred T F (s.setChannel n (some x)) := by
    intro x hx ho
    have hports : x.memberPorts = ch.memberPorts := by
      rw [Channel.memberPorts, hx]
      exact Channel.updateEndpoint_ports (fun _ => rfl)
    refine h.setChannel hc ⟨by rw [hports], by rw [hx]; exact .update (fun _ => ⟨.refl _, .refl _⟩), ho⟩
      (fun w hw => ?_)
    simp only [slotSum, hx]
    exact slotSum_updateEndpoint_same (fun e => hw _ _ rfl rfl)
  unfold State.recordAccept
  simp only
  split
  · exact answered _ rfl (fun _ hd => hd)
  · refine Referred.appendEvents (answered _ ?_ ?_) _ _
    · rfl
    · intro d hd; cases hd

theorem Port.nodup_filter (c : Port → Bool) : (Port.all.filter c).Nodup := Port.nodup_all.filter c

theorem Referred.makeOffer (h : Referred T F s) {members : List Port} (hc : s.channel n = none)
    (hm : members.Nodup) (cls : ConduitClass) (window size limit : Nat) :
    Referred T F (s.makeOffer n p members cls window size limit) := by
  have hports : (members.map Endpoint.initial).map (fun e => e.port) = members := by
    rw [List.map_map]
    exact (List.map_congr_left (fun _ _ => rfl)).trans (List.map_id members)
  have hempty : ∀ e ∈ members.map Endpoint.initial, e.queue = [] ∧ e.holds = [] := by
    intro e he
    obtain ⟨m, -, rfl⟩ := List.mem_map.1 he
    exact ⟨rfl, rfl⟩
  have offered : ∀ (x : Channel) (g : Byte), x.members = members.map Endpoint.initial →
      Referred T F { s with conduits := s.conduits.set n { generation := g, channel := some x } } := by
    intro x g hx
    have hch : ∀ m, ({ s with conduits := s.conduits.set n { generation := g, channel := some x } } : State).channel m =
        if m = n then some x else s.channel m := fun m => by
      simp only [State.channel, State.conduit, Fin.getElem_fin, Vector.getElem_set, Fin.ext_iff, eq_comm]
      split <;> rfl
    have hsum : ∀ w : Endpoint → Nat, (∀ e : Endpoint, e.queue = [] → e.holds = [] → w e = 0) →
        ({ s with conduits := s.conduits.set n { generation := g, channel := some x } } : State).tally w =
          s.tally w := fun w hw => State.tally_congr (fun m => by
      rw [hch]
      split
      · rename_i e
        rw [e, hc]
        exact slotSum_eq_zero (fun e he => by
          rw [hx] at he
          exact hw e (hempty e he).1 (hempty e he).2)
      · rfl)
    have back : ∀ m y, ({ s with conduits := s.conduits.set n { generation := g, channel := some x } } : State).channel m =
        some y → (m = n ∧ y = x) ∨ s.channel m = some y := fun m y hy => by
      rw [hch] at hy
      split at hy
      · rename_i e; cases hy; exact .inl ⟨e, rfl⟩
      · exact .inr hy
    refine ⟨⟨⟨fun m y hy => ?_, fun m y d hy hd => ?_⟩, ⟨fun m y e k g' hy he hk hg' => ?_,
      fun m y e d g' q r hy he hd hg' hst => ?_⟩, ⟨h.sound.fills.filling, h.sound.fills.filled⟩⟩, ?_⟩
    · obtain ⟨rfl, rfl⟩ | hy := back m y hy
      · rw [Channel.memberPorts, hx, hports]; exact hm
      · exact h.sound.tidy.distinct m y hy
    · obtain ⟨rfl, rfl⟩ | hy := back m y hy
      · rw [hx]; exact hempty
      · exact h.sound.tidy.idle m y d hy hd
    · obtain ⟨rfl, rfl⟩ | hy := back m y hy
      · rw [hx] at he; rw [(hempty e he).1] at hk; cases hk
      · exact h.sound.named.queued m y e k g' hy he hk hg'
    · obtain ⟨rfl, rfl⟩ | hy := back m y hy
      · rw [hx] at he; rw [(hempty e he).2] at hd; cases hd
      · exact h.sound.named.held m y e d g' q r hy he hd hg' hst
    · have hrefs : ({ s with conduits := s.conduits.set n { generation := g, channel := some x } } : State).refsWith T =
          s.refsWith T := by
        funext k
        simp only [State.refsWith, State.queueEntries_eq, State.holdEntries_eq]
        rw [hsum _ (fun e hq _ => by simp [queueWeight, hq]),
          hsum _ (fun e _ hh => by simp [holdWeight, Endpoint.holdsOf, hh])]
      rw [hrefs]
      exact h.counted.of_stages (fun _ => rfl)
  exact (offered _ _ rfl).appendEvents _ _

/-! #### Transfers -/

/-- One more, or one less, transfer that names a descriptor. -/
theorem Referred.transfer (h : Referred T F s) {c : Claim} {k : Handle} {x : Nat}
    (hr : 1 ≤ (s.refsWith T k).total)
    (hc : c.change (s.refsWith T k) = { s.refsWith T k with transfer := x }) :
    Referred (fun j => if j = k then x else T j) F (s.claim c k) where
  sound := h.sound.claim c k
  counted := by
    rw [State.refsWith_congr (s := s) (fun w => s.claim_tally c k w)]
    have := h.counted.claim c hr
    have hrefs : s.refsWith (fun j => if j = k then x else T j) =
        fun j => if j = k then c.change (s.refsWith T k) else s.refsWith T j := by
      funext j
      by_cases e : j = k
      · rw [e, if_pos rfl, hc]; simp [State.refsWith]
      · simp [e, State.refsWith]
    rwa [hrefs]

end Operations

end Sys2Proof.Machine


/-! ### References: reads and fills

The operations that begin or end a transfer or a fill. `X` says which descriptor each port transfers, `F` which one it
fills; the transfers in flight are `carried X`. -/

namespace Sys2Proof.Machine

section Deeds

variable {s t : State} {T : Handle → Nat} {X F : Port → Option Handle} {n : ConduitNo} {p : Port} {h : Handle}

/-! #### Transfers in flight -/

/-- How many ports transfer a descriptor. -/
def carried (X : Port → Option Handle) (h : Handle) : Nat := Port.all.countP (fun p => X p == some h)

/-- One port's transfer replaced. -/
theorem carried_update (X : Port → Option Handle) (p : Port) (v : Option Handle) (h : Handle) :
    carried (Function.update X p v) h + (if X p = some h then 1 else 0) = carried X h + (if v = some h then 1 else 0) := by
  have key : ∀ l : List Port, l.Nodup →
      l.countP (fun q => Function.update X p v q == some h) + (if p ∈ l then (if X p = some h then 1 else 0) else 0) =
        l.countP (fun q => X q == some h) + (if p ∈ l then (if v = some h then 1 else 0) else 0) := by
    intro l hl
    induction l with
    | nil => simp
    | cons a l ih =>
      rw [List.nodup_cons] at hl
      have := ih hl.2
      simp only [List.countP_cons, beq_iff_eq, List.mem_cons]
      by_cases ha : a = p
      · subst ha
        rw [if_neg hl.1, if_neg hl.1] at this
        simp only [Function.update_self, true_or, if_true]
        omega
      · have hpa : p ≠ a := fun e => ha e.symm
        simp only [Function.update_of_ne ha, hpa, false_or]
        omega
  simpa [carried] using key Port.all Port.nodup_all

theorem carried_begin (hX : X p = none) (k : Handle) :
    carried (Function.update X p (some h)) k = if k = h then carried X k + 1 else carried X k := by
  have := carried_update X p (some h) k
  simp only [hX, Option.some.injEq, reduceCtorEq, if_false] at this
  by_cases hk : k = h
  · subst hk; simpa using this
  · have : h ≠ k := fun e => hk e.symm
    simp_all

theorem carried_end (hX : X p = some h) (k : Handle) :
    carried (Function.update X p none) k = if k = h then carried X k - 1 else carried X k := by
  have := carried_update X p none k
  simp only [hX, Option.some.injEq, reduceCtorEq, if_false] at this
  by_cases hk : k = h
  · subst hk; simp only [if_true] at this ⊢; omega
  · have : h ≠ k := fun e => hk e.symm
    simp_all

theorem carried_pos (hX : X p = some h) : 1 ≤ carried X h :=
  List.countP_pos_iff.2 ⟨p, Port.mem_all p, by simp [hX]⟩

/-! #### What is queued or held is counted -/

theorem State.queued_pos {ch : Channel} {e : Endpoint} (hc : s.channel n = some ch) (he : e ∈ ch.members)
    (hk : h ∈ e.queue) : 1 ≤ s.queueEntries h := by
  rw [State.queueEntries_eq]
  have h1 : 1 ≤ queueWeight h e := List.count_pos_iff.2 hk
  exact h1.trans (le_tally hc he)

theorem State.held_pos {ch : Channel} {e : Endpoint} {d : Hold} (hc : s.channel n = some ch) (he : e ∈ ch.members)
    (hd : d ∈ e.holds) : 1 ≤ s.holdEntries d.handle := by
  rw [State.holdEntries_eq]
  have h1 : 1 ≤ holdWeight d.handle e := List.countP_pos_iff.2 ⟨d, hd, by simp⟩
  exact h1.trans (le_tally hc he)

/-- The head of a delivery queue is LIVE and names its conduit. -/
theorem Referred.queued_live (hr : Referred T F s) {ch : Channel} {e : Endpoint} (hc : s.channel n = some ch)
    (he : e ∈ ch.members) (hk : h ∈ e.queue) :
    ∃ g q, s.segment h = some g ∧ g.stage = .live q (s.refsWith T h) ∧ g.conduit = some n := by
  have := State.queued_pos hc he hk
  obtain ⟨g, q, hg, hst⟩ := hr.counted.is_live (h := h) (by simp only [State.refsWith, Refs.total]; omega)
  exact ⟨g, q, hg, hst, hr.sound.named.queued n ch e h g hc he hk hg⟩

theorem Referred.held_live (hr : Referred T F s) {ch : Channel} {e : Endpoint} {d : Hold} (hc : s.channel n = some ch)
    (he : e ∈ ch.members) (hd : d ∈ e.holds) :
    ∃ g, s.segment d.handle = some g ∧ g.stage = .live d.sequence (s.refsWith T d.handle) ∧ g.conduit = some n := by
  have := State.held_pos hc he hd
  obtain ⟨g, q, hg, hst⟩ := hr.counted.is_live (h := d.handle) (by simp only [State.refsWith, Refs.total]; omega)
  obtain ⟨hn, hq⟩ := hr.sound.named.held n ch e d g q _ hc he hd hg hst
  exact ⟨g, hg, hq ▸ hst, hn⟩

/-- Nothing refers to what is not LIVE. -/
theorem Referred.unreferenced (hr : Referred T F s) (hno : ∀ g q r, s.segment h = some g → g.stage ≠ .live q r) :
    s.refsWith T h = ⟨0, 0, 0⟩ := hr.counted.others h hno

theorem Referred.not_queued (hr : Referred T F s) (hno : ∀ g q r, s.segment h = some g → g.stage ≠ .live q r)
    {ch : Channel} {e : Endpoint} (hc : s.channel n = some ch) (he : e ∈ ch.members) : h ∉ e.queue := fun hk => by
  obtain ⟨g, q, hg, hst, -⟩ := hr.queued_live hc he hk
  exact hno g q _ hg hst

theorem Referred.not_held (hr : Referred T F s) (hno : ∀ g q r, s.segment h = some g → g.stage ≠ .live q r)
    {ch : Channel} {e : Endpoint} {d : Hold} (hc : s.channel n = some ch) (he : e ∈ ch.members) (hd : d ∈ e.holds) :
    d.handle ≠ h := fun e' => by
  obtain ⟨g, hg, hst, -⟩ := hr.held_live hc he hd
  exact hno g _ _ (e' ▸ hg) hst

/-- A port's fill is FILLING. -/
theorem Referred.fill_not_live (hr : Referred T F s) (hF : F p = some h) (g : Segment) (q : Half) (r : Refs)
    (hg : s.segment h = some g) : g.stage ≠ .live q r := fun hst => by
  obtain ⟨g', hg', hst', -⟩ := hr.sound.fills.filled p h hF
  rw [hg] at hg'
  cases hg'
  rw [hst] at hst'
  cases hst'

/-! #### Reads -/

/-- A transfer of a referenced descriptor begins with a claim that adds it (R73, R74). -/
theorem Referred.beginTransfer (hr : Referred (carried X) F s) {c : Claim} (hX : X p = none)
    (hc : ∀ r, c.change r = { r with transfer := r.transfer + 1 }) (h1 : 1 ≤ s.queueEntries h + s.holdEntries h) :
    Referred (carried (Function.update X p (some h))) F (s.claim c h) := by
  have := hr.transfer (c := c) (k := h) (x := carried X h + 1)
    (by simp only [State.refsWith, Refs.total]; omega) (hc _)
  refine (funext (fun k => ?_) : carried (Function.update X p (some h)) = _) ▸ this
  rw [carried_begin hX k]
  split
  · rename_i e; rw [e]
  · rfl

/-- A transfer ends with its claim (R15, R163). -/
theorem Referred.endTransfer (hr : Referred (carried X) F s) (hX : X p = some h) :
    Referred (carried (Function.update X p none)) F (s.claim .transferEnd h) := by
  have hpos := carried_pos hX
  have := hr.transfer (c := .transferEnd) (k := h) (x := carried X h - 1)
    (by simp only [State.refsWith, Refs.total]; omega) rfl
  refine (funext (fun k => ?_) : carried (Function.update X p none) = _) ▸ this
  rw [carried_end hX k]
  split
  · rename_i e; rw [e]
  · rfl

/-- An endpoint with the head of its queue moved to its holds. -/
def Endpoint.moved (d : Hold) (x : Endpoint) : Endpoint :=
  { x with queue := x.queue.tail, holds := x.holds ++ [d] }

theorem Endpoint.moved_queueWeight {x : Endpoint} {rest : List Handle} (hq : x.queue = h :: rest) (d : Hold)
    (k : Handle) : queueWeight k (x.moved d) + (if h = k then 1 else 0) = queueWeight k x := by
  simp only [queueWeight, Endpoint.moved, hq, List.tail_cons, List.count_cons, beq_iff_eq]

theorem Endpoint.moved_holdWeight (x : Endpoint) (d : Hold) (k : Handle) :
    holdWeight k (x.moved d) = holdWeight k x + if d.handle = k then 1 else 0 := by
  simp only [holdWeight, Endpoint.holdsOf, Endpoint.moved, List.countP_append, List.countP_singleton, beq_iff_eq]

/-- A head moves to the holds of its endpoint, with its segment's sequence. -/
theorem Sound.moveHead (hs : Sound s F) {ch : Channel} {f : Flow} {d : Hold} {g : Segment} {r : Refs}
    (hc : s.channel n = some ch) (hf : ch.stage.flow? = some f) (hg : s.segment d.handle = some g)
    (hst : g.stage = .live d.sequence r) (hcon : g.conduit = some n) :
    Sound (s.setChannel n (some (ch.updateEndpoint p (Endpoint.moved d)))) F where
  tidy :=
    { distinct := fun m c' hm => by
        rw [State.setChannel_channel] at hm
        split at hm
        · cases hm
          rw [Channel.updateEndpoint_ports (f := Endpoint.moved d) (fun _ => rfl)]
          exact hs.tidy.distinct n ch hc
        · exact hs.tidy.distinct m c' hm
      idle := fun m c' dl hm hdl => by
        rw [State.setChannel_channel] at hm
        split at hm
        · cases hm
          rw [show ch.stage = .offered dl from hdl] at hf
          cases hf
        · exact hs.tidy.idle m c' dl hm hdl }
  named := by
    have back : ∀ m c' x', (s.setChannel n (some (ch.updateEndpoint p (Endpoint.moved d)))).channel m = some c' →
        x' ∈ c'.members → ∃ c x, s.channel m = some c ∧ x ∈ c.members ∧ (x' = x ∨ m = n ∧ x' = x.moved d) := by
      intro m c' x' hm hx'
      rw [State.setChannel_channel] at hm
      split at hm
      · rename_i em
        cases hm
        obtain ⟨x, hx, rfl⟩ := List.mem_map.1 hx'
        refine ⟨ch, x, em ▸ hc, hx, ?_⟩
        split
        · exact .inr ⟨em, rfl⟩
        · exact .inl rfl
      · exact ⟨c', x', hm, hx', .inl rfl⟩
    constructor
    · intro m c' x' k y hm hx' hk hy
      obtain ⟨c, x, hcm, hx, rfl | ⟨-, rfl⟩⟩ := back m c' x' hm hx'
      · exact hs.named.queued m c x' k y hcm hx hk hy
      · exact hs.named.queued m c x k y hcm hx (List.mem_of_mem_tail hk) hy
    · intro m c' x' d' y q' r' hm hx' hd hy hst'
      obtain ⟨c, x, hcm, hx, rfl | ⟨rfl, rfl⟩⟩ := back m c' x' hm hx'
      · exact hs.named.held m c x' d' y q' r' hcm hx hd hy hst'
      · obtain hd | hd := List.mem_append.1 hd
        · exact hs.named.held m c x d' y q' r' hcm hx hd hy hst'
        · rw [List.mem_singleton] at hd
          subst hd
          have hyg : s.segment d'.handle = some y := hy
          rw [hg] at hyg
          cases hyg
          rw [hst] at hst'
          simp only [SegmentStage.live.injEq] at hst'
          exact ⟨hcon, hst'.1.symm⟩
  fills := ⟨hs.fills.filling, hs.fills.filled⟩

/-- A TAKE of a head (R68). -/
theorem Referred.take (hr : Referred (carried X) F s) (hX : X p = none) {ch : Channel} {e : Endpoint}
    {rest : List Handle} {f : Flow} (hc : s.channel n = some ch) (hf : ch.stage.flow? = some f)
    (he : ch.endpoint? p = some e) (hq : e.queue = h :: rest) :
    Referred (carried (Function.update X p (some h))) F (s.takeHead p n ch h) := by
  obtain ⟨hm, rfl⟩ := Channel.endpoint?_some he
  obtain ⟨g, q, hg, hst, hcon⟩ := hr.queued_live hc hm (h := h) (by rw [hq]; exact List.mem_cons_self)
  let d : Hold := { sequence := s.sequenceOf h, handle := h, deadline := s.holdDeadline ch.holdLimit }
  let u := s.setChannel n (some (ch.updateEndpoint e.port (Endpoint.moved d)))
  have hsound : Sound u F := hr.sound.moveHead hc hf hg (by rw [hst, ← State.sequenceOf_live hg hst]) hcon
  have hcount : Counted u (s.refsWith (carried X)) := hr.counted.of_stages (fun _ => rfl)
  have htally : ∀ w : Endpoint → Nat, u.tally w + w e = s.tally w + w (e.moved d) := fun w => by
    have h1 := State.tally_update (s := s) (t := u) (w := w) (n := n)
      (fun m hm => State.setChannel_channel_ne _ _ hm)
    have h2 := slotSum_updateEndpoint (w := w) (Endpoint.moved d) (hr.sound.tidy.distinct n ch hc) hm
    rw [show u.channel n = _ from State.setChannel_channel_self _ _ _, hc] at h1
    omega
  have hrefs : (u.claim .take h).refsWith (carried (Function.update X e.port (some h))) =
      fun k => if k = h then Claim.take.change (s.refsWith (carried X) h) else s.refsWith (carried X) k := by
    rw [State.refsWith_congr (s := u) (fun w => u.claim_tally .take h w)]
    funext k
    have h1 := htally (queueWeight k)
    have h2 := htally (holdWeight k)
    have h3 := Endpoint.moved_queueWeight hq d k
    have h4 := e.moved_holdWeight d k
    rw [← State.queueEntries_eq, ← State.queueEntries_eq] at h1
    rw [← State.holdEntries_eq, ← State.holdEntries_eq] at h2
    rw [show d.handle = h from rfl] at h4
    by_cases hk : k = h
    · subst hk
      rw [if_pos rfl] at h3 h4
      simp only [State.refsWith, carried_begin hX, if_true, Claim.change, Refs.mk.injEq, and_true]
      omega
    · have hne : h ≠ k := fun x => hk x.symm
      rw [if_neg hne] at h3 h4
      simp only [State.refsWith, carried_begin hX, if_neg hk, Refs.mk.injEq, and_true]
      omega
  have hclaimed : Referred (carried (Function.update X e.port (some h))) F (u.claim .take h) := by
    refine ⟨hsound.claim .take h, ?_⟩
    rw [hrefs]
    refine hcount.claim .take ?_
    have := State.queued_pos hc hm (h := h) (by rw [hq]; exact List.mem_cons_self)
    simp only [State.refsWith, Refs.total]
    omega
  unfold State.takeHead State.updateEndpoint
  rw [s.updateChannel_of_some n hc]
  exact hclaimed.drainCheck n

/-! #### Fills -/

/-- Where the slots queue and hold what they did, but for one descriptor that nothing referred to and that is not
LIVE either. -/
theorem Referred.of_fresh (hr : Referred T F s) {F' : Port → Option Handle} (htidy : Tidy t)
    (hno : ∀ g q r, s.segment h = some g → g.stage ≠ .live q r)
    (hno' : ∀ g q r, t.segment h = some g → g.stage ≠ .live q r) (hseg : ∀ k, k ≠ h → t.segment k = s.segment k)
    (hch : ∀ m, (t.channel m).map Channel.members = (s.channel m).map Channel.members) (hfills : FillsAre t F') :
    Referred T F' t := by
  have hback : ∀ m c', t.channel m = some c' → ∃ c, s.channel m = some c ∧ c'.members = c.members := by
    intro m c' hm
    have := hch m
    rw [hm, Option.map_some, eq_comm, Option.map_eq_some_iff] at this
    obtain ⟨c, hc, he⟩ := this
    exact ⟨c, hc, he.symm⟩
  have hrefs : t.refsWith T = s.refsWith T := State.refsWith_congr (fun w => State.tally_congr (fun m => by
    have := hch m
    cases hs : s.channel m with
    | none => rw [hs, Option.map_none, Option.map_eq_none_iff] at this; rw [this]
    | some c =>
      rw [hs, Option.map_some, Option.map_eq_some_iff] at this
      obtain ⟨c', hc', he⟩ := this
      rw [hc']
      simp only [slotSum, he])) T
  refine ⟨⟨htidy, ⟨fun m c' x k g hm hx hk hg => ?_, fun m c' x d g q r hm hx hd hg hst => ?_⟩, hfills⟩,
    ⟨fun k g q r hg hst => ?_, fun k hk => ?_⟩⟩
  · obtain ⟨c, hc, he⟩ := hback m c' hm
    have hne : k ≠ h := fun ek => hr.not_queued hno hc (he ▸ hx) (ek ▸ hk)
    exact hr.sound.named.queued m c x k g hc (he ▸ hx) hk (hseg k hne ▸ hg)
  · obtain ⟨c, hc, he⟩ := hback m c' hm
    have hne := hr.not_held hno hc (he ▸ hx) hd
    exact hr.sound.named.held m c x d g q r hc (he ▸ hx) hd (hseg _ hne ▸ hg) hst
  · have hne : k ≠ h := fun ek => hno' g q r (ek ▸ hg) hst
    rw [hrefs]
    exact hr.counted.live k g q r (hseg k hne ▸ hg) hst
  · rw [hrefs]
    by_cases hne : k = h
    · rw [hne]; exact hr.unreferenced hno
    · exact hr.counted.others k (fun g q r hg => hk g q r ((hseg k hne).trans hg))

theorem Tidy.mapFlow (ht : Tidy s) {f : ConduitNo → Flow → Flow}
    (hch : ∀ m, t.channel m = (s.channel m).map (Channel.mapFlow (f m))) : Tidy t :=
  ht.narrow (fun m c' hm => by
    rw [hch] at hm
    obtain ⟨c, hc, rfl⟩ := Option.map_eq_some_iff.1 hm
    exact ⟨c, hc, .mapFlow c _⟩)

theorem FillsAre.begin (hf : FillsAre s F) (hF : F p = none) (hfree : s.segment h = none) {g : Segment}
    (hseg : ∀ k, t.segment k = if k = h then some g else s.segment k) (hst : g.stage = .filling)
    (hp : g.producer = p) : FillsAre t (Function.update F p (some h)) where
  filling k y hy hsty := by
    rw [hseg] at hy
    split at hy
    · rename_i ek; cases hy; rw [hp, Function.update_self, ek]
    · have := hf.filling k y hy hsty
      rw [Function.update_of_ne (fun e => by rw [e, hF] at this; cases this), this]
  filled q k hk := by
    by_cases hq : q = p
    · subst hq
      rw [Function.update_self, Option.some.injEq] at hk
      subst hk
      exact ⟨g, by rw [hseg, if_pos rfl], hst, hp⟩
    · rw [Function.update_of_ne hq] at hk
      obtain ⟨y, hy, hsty, hpy⟩ := hf.filled q k hk
      exact ⟨y, by rw [hseg, if_neg (fun e => by rw [e, hfree] at hy; cases hy), hy], hsty, hpy⟩

theorem FillsAre.finish (hf : FillsAre s F) (hF : F p = some h) (hseg : ∀ k, k ≠ h → t.segment k = s.segment k)
    (hno : ∀ g, t.segment h = some g → g.stage ≠ .filling) : FillsAre t (Function.update F p none) where
  filling k y hy hsty := by
    have hk : k ≠ h := fun e => hno y (e ▸ hy) hsty
    have := hf.filling k y (hseg k hk ▸ hy) hsty
    rw [Function.update_of_ne (fun e => by rw [e, hF] at this; cases this; exact hk rfl), this]
  filled q k hk := by
    have hq : q ≠ p := fun e => by rw [e, Function.update_self] at hk; cases hk
    rw [Function.update_of_ne hq] at hk
    obtain ⟨y, hy, hsty, hpy⟩ := hf.filled q k hk
    have hkh : k ≠ h := fun e => by
      obtain ⟨g, hg, -, hp⟩ := hf.filled p h hF
      rw [e, hg] at hy
      cases hy
      exact hq (hpy.symm.trans hp)
    exact ⟨y, (hseg k hkh).trans hy, hsty, hpy⟩

/-- A fill begins in a FREE descriptor (R7, R52). -/
theorem Referred.startFill (hr : Referred T F s) (hF : F p = none) (hfree : s.segment h = none) (length : Nat) :
    Referred T (Function.update F p (some h)) (s.startFill h p n length) := by
  have hchan : ∀ m, (s.startFill h p n length).channel m = (s.channel m).map (Channel.mapFlow
      (if m = n then (fun f => { f with outstanding := f.outstanding + 1 }) else id)) := fun m => by
    rw [State.startFill_channel]
    split
    · rename_i e; rw [e]
    · cases s.channel m <;> simp [Channel.mapFlow_eq_self]
  have hseg := s.startFill_segment h p n length
  refine hr.of_fresh (h := h) (hr.sound.tidy.mapFlow hchan) (fun g q r hg => ?_) (fun g q r hg => ?_) (fun k hk => ?_)
    (fun m => ?_) (hr.sound.fills.begin hF hfree hseg rfl rfl)
  · rw [hfree] at hg; cases hg
  · rw [hseg, if_pos rfl] at hg; cases hg; simp
  · rw [hseg, if_neg hk]
  · rw [hchan, Option.map_map]; rfl

/-- A fill is freed (R11, R56, R57). -/
theorem Referred.freeFill (hr : Referred T F s) (hF : F p = some h) :
    Referred T (Function.update F p none) (s.freeDescriptor h) := by
  have hself : (s.freeDescriptor h).segment h = none := by rw [State.freeDescriptor_segment, if_pos rfl]
  have hseg : ∀ k, k ≠ h → (s.freeDescriptor h).segment k = s.segment k := fun k hk => by
    rw [State.freeDescriptor_segment, if_neg hk]
  refine hr.of_fresh (h := h) (hr.sound.tidy.mapFlow (fun m => s.freeDescriptor_channel h m)) (hr.fill_not_live hF)
    (fun g q r hg => ?_) hseg (fun m => ?_) (hr.sound.fills.finish hF hseg (fun g hg => ?_))
  · rw [hself] at hg; cases hg
  · rw [State.freeDescriptor_channel, Option.map_map]; rfl
  · rw [hself] at hg; cases hg

/-- A fill takes in payload bytes. -/
theorem Referred.receivePayload (hr : Referred T F s) (p : Port) (bytes : List Byte) :
    Referred T F (s.receivePayload p bytes) := by
  have hback : ∀ k g', (s.receivePayload p bytes).segment k = some g' →
      ∃ g, s.segment k = some g ∧ g'.conduit = g.conduit ∧ g'.producer = g.producer ∧ g'.stage = g.stage :=
    fun k g' => State.receivePayload_segment_some
  have hforth : ∀ k g, s.segment k = some g → ∃ g', (s.receivePayload p bytes).segment k = some g' ∧
      g'.producer = g.producer ∧ g'.stage = g.stage := fun k g hg => by
    rw [State.receivePayload_segment, hg]
    split
    · exact ⟨_, rfl, rfl, rfl⟩
    · exact ⟨g, rfl, rfl, rfl⟩
  have hsound : Sound (s.receivePayload p bytes) F :=
    hr.sound.narrow (fun m c hm => ⟨c, s.receivePayload_channel p bytes m ▸ hm, .refl c⟩)
      (fun k g' hg' => by
        obtain ⟨g, hg, hc, hp, hst⟩ := hback k g' hg'
        exact ⟨g, hg, ⟨hp, fun h => hst ▸ h, fun q r h => ⟨r, hst ▸ h⟩⟩, fun m _ hm => hc.trans hm⟩)
      (fun k g hg hst => by
        obtain ⟨g', hg', hp, hst'⟩ := hforth k g hg
        exact ⟨g', hg', hst'.trans hst, hp⟩)
  refine ⟨hsound, ?_⟩
  rw [State.refsWith_congr (s := s) (fun w => State.tally_congr (fun m => by rw [State.receivePayload_channel]))]
  refine hr.counted.of_stages (fun k => ?_)
  rw [State.receivePayload_segment]
  split
  · rw [Option.map_map]; rfl
  · rfl

section Delivered

variable {g : Segment} {ch : Channel} {f : Flow}

/-- The endpoints after a delivery: those before it, the handle queued behind at the conduit's members. -/
theorem State.deliver_member_back (hc : s.channel n = some ch) {m : ConduitNo} {c' : Channel} {x' : Endpoint}
    (hm : (s.deliver h g n ch f).channel m = some c') (hx' : x' ∈ c'.members) :
    ∃ c x, s.channel m = some c ∧ x ∈ c.members ∧ x'.holds = x.holds ∧
      (x'.queue = x.queue ∨ m = n ∧ x'.queue = x.queue ++ [h]) := by
  rw [s.deliver_channel h g n ch f] at hm
  split at hm
  · rename_i e
    cases hm
    obtain ⟨x, hx, rfl⟩ := List.mem_map.1 hx'
    exact ⟨ch, x, e ▸ hc, hx, rfl, .inr ⟨e, rfl⟩⟩
  · exact ⟨c', x', hm, hx', rfl, .inl rfl⟩

theorem sum_queueWeight_append (k h : Handle) (l : List Endpoint) :
    ((l.map (fun e => ({ e with queue := e.queue ++ [h] } : Endpoint))).map (queueWeight k)).sum =
      (l.map (queueWeight k)).sum + if k = h then l.length else 0 := by
  induction l with
  | nil => simp
  | cons a l ih =>
    simp only [List.map_cons, List.sum_cons, ih, queueWeight, List.count_append, List.count_singleton, beq_iff_eq,
      List.length_cons, eq_comm (a := h)]
    split <;> omega

theorem State.deliver_queueEntries (hc : s.channel n = some ch) (k : Handle) :
    (s.deliver h g n ch f).queueEntries k = s.queueEntries k + if k = h then ch.members.length else 0 := by
  have h1 := State.tally_update (s := s) (t := s.deliver h g n ch f) (w := queueWeight k) (n := n)
    (fun m hm => by rw [State.deliver_channel, if_neg hm])
  rw [State.deliver_channel, if_pos rfl, hc, ← State.queueEntries_eq, ← State.queueEntries_eq] at h1
  have h2 := sum_queueWeight_append k h ch.members
  simp only [slotSum] at h1
  omega

theorem State.deliver_holdEntries (hc : s.channel n = some ch) (k : Handle) :
    (s.deliver h g n ch f).holdEntries k = s.holdEntries k := by
  rw [State.holdEntries_eq, State.holdEntries_eq]
  refine State.tally_congr (fun m => ?_)
  rw [State.deliver_channel]
  split
  · rename_i e
    rw [e, hc]
    simp only [slotSum, List.map_map]
    rfl
  · rfl

/-- A delivery leaves the slots' endpoints distinct, and an offer's endpoints idle. -/
theorem Tidy.deliver (ht : Tidy s) (hc : s.channel n = some ch) (hf : ch.stage.flow? = some f) :
    Tidy (s.deliver h g n ch f) := by
  refine ⟨fun m c' hm => ?_, fun m c' dl hm hdl => ?_⟩ <;> rw [State.deliver_channel] at hm <;> split at hm
  · cases hm
    simpa [Channel.memberPorts, List.map_map, Function.comp_def] using ht.distinct n ch hc
  · exact ht.distinct m c' hm
  · cases hm
    rw [Stage.mapFlow_offered hdl] at hf
    cases hf
  · exact ht.idle m c' dl hm hdl

end Delivered

/-- A fill is delivered to every member of its conduit (R8, R55). -/
theorem Referred.deliver (hr : Referred T F s) (hF : F p = some h) {g : Segment} {ch : Channel} {f : Flow}
    (hg : s.segment h = some g) (ht : s.deliveryTarget g = some (n, ch, f)) :
    Referred T (Function.update F p none) (s.deliver h g n ch f) := by
  obtain ⟨hcon, hc, hf, hne⟩ := State.deliveryTarget_eq_some ht
  have hno := hr.fill_not_live hF
  have hzero := hr.unreferenced hno
  set u := s.deliver h g n ch f
  set g' : Segment := { g with stage := .live f.nextSequence { queue := ch.members.length, hold := 0, transfer := 0 } }
  have hseg : ∀ k, u.segment k = if k = h then some g' else s.segment k := s.deliver_segment h g n ch f
  have hback : ∀ m c' x', u.channel m = some c' → x' ∈ c'.members → ∃ c x, s.channel m = some c ∧ x ∈ c.members ∧
      x'.holds = x.holds ∧ (x'.queue = x.queue ∨ m = n ∧ x'.queue = x.queue ++ [h]) :=
    fun _ _ _ => State.deliver_member_back hc
  have hqueue : ∀ k, u.queueEntries k = s.queueEntries k + if k = h then ch.members.length else 0 :=
    State.deliver_queueEntries hc
  have hhold : ∀ k, u.holdEntries k = s.holdEntries k := State.deliver_holdEntries hc
  have hrefs : ∀ k, k ≠ h → u.refsWith T k = s.refsWith T k := fun k hk => by
    simp [State.refsWith, hqueue, hhold, hk]
  have hself : u.refsWith T h = { queue := ch.members.length, hold := 0, transfer := 0 } := by
    simp only [State.refsWith, Refs.mk.injEq] at hzero
    simp only [State.refsWith, hqueue, hhold, if_true, hzero, Nat.zero_add]
  refine ⟨⟨hr.sound.tidy.deliver hc hf, ⟨fun m c' x' k y hm hx' hk hy => ?_,
    fun m c' x' d y q r hm hx' hd hy hst => ?_⟩, hr.sound.fills.finish hF (fun k hk => by rw [hseg, if_neg hk])
    (fun y hy => ?_)⟩, ⟨fun k y q r hy hst => ?_, fun k hk => ?_⟩⟩
  · obtain ⟨c, x, hcm, hx, -, hq⟩ := hback m c' x' hm hx'
    by_cases hkh : k = h
    · rw [hseg, if_pos hkh] at hy
      cases hy
      obtain hq | ⟨rfl, -⟩ := hq
      · rw [hq, hkh] at hk; exact absurd hk (hr.not_queued hno hcm hx)
      · exact hcon
    · rw [hseg, if_neg hkh] at hy
      have hold : k ∈ x.queue := by
        obtain hq | ⟨-, hq⟩ := hq
        · exact hq ▸ hk
        · rw [hq, List.mem_append, List.mem_singleton] at hk
          exact hk.resolve_right hkh
      exact hr.sound.named.queued m c x k y hcm hx hold hy
  · obtain ⟨c, x, hcm, hx, hh, -⟩ := hback m c' x' hm hx'
    rw [hh] at hd
    rw [hseg, if_neg (hr.not_held hno hcm hx hd)] at hy
    exact hr.sound.named.held m c x d y q r hcm hx hd hy hst
  · rw [hseg, if_pos rfl] at hy; cases hy; simp [g']
  · by_cases hkh : k = h
    · subst hkh
      rw [hseg, if_pos rfl] at hy
      cases hy
      simp only [g', SegmentStage.live.injEq] at hst
      rw [hself]
      refine ⟨hst.2.symm, ?_⟩
      have := List.length_pos_iff.2 hne
      simp only [Refs.total]
      omega
    · rw [hseg, if_neg hkh] at hy
      rw [hrefs k hkh]
      exact hr.counted.live k y q r hy hst
  · have hkh : k ≠ h := fun e => hk g' _ _ (by rw [hseg, if_pos e]) rfl
    rw [hrefs k hkh]
    exact hr.counted.others k (fun y q r hy => hk y q r (by rw [hseg, if_neg hkh, hy]))

end Deeds

end Sys2Proof.Machine


/-! ### References: the owning blocks' answers -/

namespace Sys2Proof.Machine

section Answers

variable {s t : State} {T : Handle → Nat} {F : Port → Option Handle} {n : ConduitNo} {p : Port}

/-! #### Answers that move no reference of a port -/

/-- An answer that places no handle, changes no port controller, and keeps the references whatever is in flight. -/
structure Quiet (s : State) (a : Answer) : Prop where
  handle : a.handle = none
  ports : a.state.ports = s.ports
  refs : ∀ T F, Referred T F s → Referred T F a.state

theorem Quiet.refuse (s : State) (o : OutcomeCode) : Quiet s (refuse s o) := ⟨rfl, rfl, fun _ _ h => h⟩

/-- An answer that leaves pool and slots as they are. -/
theorem Quiet.of_store {a : Answer} (hh : a.handle = none) (hp : a.state.ports = s.ports) (hs : SameStore s a.state) :
    Quiet s a := ⟨hh, hp, fun _ _ h => h.store hs⟩

/-- The checks of R27 and R28 in front of a command refuse, or let the command answer. -/
theorem State.onConduit_elim {Q : Answer → Prop} {b : Byte} {k : ConduitNo → Channel → Answer}
    (refused : ∀ o, o ≠ .done → Q (Machine.refuse s o)) (hk : ∀ n ch, s.channel n = some ch → Q (k n ch)) : Q (s.onConduit b k) := by
  unfold State.onConduit
  split
  · exact refused _ (by simp)
  · split
    · exact refused _ (by simp)
    · rename_i hc; exact hk _ _ hc

theorem State.asProducer_elim {Q : Answer → Prop} {b : Byte} {k : ConduitNo → Channel → Answer}
    (refused : ∀ o, o ≠ .done → Q (Machine.refuse s o)) (hk : ∀ n ch, s.channel n = some ch → Q (k n ch)) :
    Q (s.asProducer p b k) :=
  State.onConduit_elim refused (fun n ch hc => by
    split
    · exact hk n ch hc
    · exact refused _ (by simp))

theorem State.asMember_elim {Q : Answer → Prop} {b : Byte} {k : ConduitNo → Channel → Endpoint → Answer}
    (refused : ∀ o, o ≠ .done → Q (Machine.refuse s o))
    (hk : ∀ n ch e f, s.channel n = some ch → ch.endpoint? p = some e → ch.stage.flow? = some f → Q (k n ch e)) :
    Q (s.asMember p b k) :=
  State.onConduit_elim refused (fun n ch hc => by
    split
    · exact refused _ (by simp)
    · rename_i e he
      split
      · exact refused _ (by simp)
      · rename_i f hf; exact hk n ch e f hc he (by rw [hf]; rfl)
      · rename_i f hf; exact hk n ch e f hc he (by rw [hf]; rfl))

/-! #### Port controllers -/

theorem State.appendEvents_ports (s : State) (ps : List Port) (e : Event) : (s.appendEvents ps e).ports = s.ports :=
  (s.appendEvents_surroundings ps e).ports

theorem State.appendEvent_ports (s : State) (p : Port) (e : Event) : (s.appendEvent p e).ports = s.ports :=
  (s.appendEvent_surroundings p e).ports

theorem State.resolveProposal_ports (s : State) (pr : Proposal) (r : ProposalResult) :
    (s.resolveProposal pr r).ports = s.ports := State.appendEvents_ports _ _ _

theorem State.abandonProposal_ports (s : State) (p : Port) : (s.abandonProposal p).ports = s.ports := by
  unfold State.abandonProposal
  split
  · rfl
  · exact s.resolveProposal_ports _ _

theorem State.adoptProposal_ports (s : State) (pr : Proposal) : (s.adoptProposal pr).ports = s.ports := by
  unfold State.adoptProposal
  split
  · exact s.resolveProposal_ports _ _
  · exact State.resolveProposal_ports _ _ _

theorem State.updateEndpoint_surroundings (s : State) (n : ConduitNo) (p : Port) (f : Endpoint → Endpoint) :
    SameSurroundings s (s.updateEndpoint n p f) := s.updateChannel_surroundings n _

theorem State.flushMember_surroundings (s : State) (n : ConduitNo) (e : Endpoint) :
    SameSurroundings s (s.flushMember n e) := by
  have emptied := (s.updateEndpoint_surroundings n e.port (fun e => { e with queue := [] })).trans
    (State.claims_surroundings _ .flush e.queue)
  unfold State.flushMember
  by_cases he : e.queue.isEmpty = true
  · simpa [he] using emptied
  · simp only [he]
    exact emptied.trans (State.appendEvent_surroundings _ _ _)

theorem State.lapseHold_surroundings (s : State) (n : ConduitNo) (p : Port) (q : Half) :
    SameSurroundings s (s.lapseHold n p q) := by
  unfold State.lapseHold
  split
  · exact .refl s
  · exact ((((s.updateEndpoint_surroundings n p _).trans (State.claim_surroundings _ _ _)).trans
      (State.updateEndpoint_surroundings _ n p _)).trans (State.appendEvent_surroundings _ _ _)).trans
      (State.drainCheck_surroundings _ n)

theorem State.lapseOffer_surroundings (s : State) (n : ConduitNo) : SameSurroundings s (s.lapseOffer n) := by
  unfold State.lapseOffer
  split
  · exact .refl s
  · split
    · split
      · exact s.failOffer_surroundings n _ _
      · exact .refl s
    · exact .refl s
    · exact .refl s

theorem State.departConduit_surroundings (s : State) (p : Port) (n : ConduitNo) :
    SameSurroundings s (s.departConduit p n) := by
  have drains : ∀ ch ps e, SameSurroundings s (((s.setChannel n (some ch)).appendEvents ps e).drainCheck n) :=
    fun ch ps e => ((s.setChannel_surroundings n _).trans (State.appendEvents_surroundings _ ps e)).trans
      (State.drainCheck_surroundings _ n)
  unfold State.departConduit
  split
  · exact .refl s
  · split
    · split
      · exact s.failOffer_surroundings n _ _
      · exact drains _ _ _
      · exact drains _ _ _
    · split
      · exact .refl s
      · split
        · exact s.failOffer_surroundings n _ _
        · exact s.removeMember_surroundings n p _
        · exact s.removeMember_surroundings n p _

theorem SameSurroundings.foldl {α : Type} {f : State → α → State} (hf : ∀ s a, SameSurroundings s (f s a))
    (l : List α) (s : State) : SameSurroundings s (l.foldl f s) := by
  induction l generalizing s with
  | nil => exact .refl s
  | cons a l ih => exact (hf s a).trans (ih _)

theorem State.departConduits_surroundings (s : State) (p : Port) : SameSurroundings s (s.departConduits p) :=
  .foldl (fun s n => s.departConduit_surroundings p n) _ s

theorem State.departAttention_ports (s : State) (p : Port) : (s.departAttention p).ports = s.ports :=
  (SameSurroundings.foldl (fun s _ => s.appendEvent_surroundings _ _) (s.attention.queues.get p) s).ports

/-- What a departure leaves of the port controllers. -/
theorem State.depart_ports (s : State) (p : Port) (cause : DepartureCause) (left : PortState) :
    (s.depart p cause left).ports =
      s.ports.set p { s.port p with state := left, outcome := OutcomeRecord.initial, rotation := 23 } := by
  unfold State.depart
  simp only
  rw [State.appendEvents_ports, show ∀ u : State, (u.clearEvents p).ports = u.ports from fun _ => rfl,
    State.abandonProposal_ports, State.departAttention_ports, (State.departConduits_surroundings _ p).ports]
  rfl

theorem State.attach_ports (s : State) (p : Port) :
    (s.attach p).ports = s.ports.set p { s.port p with state := .attached, rotation := 23 } := by
  unfold State.attach
  simp only
  rw [State.appendEvents_ports, State.abandonProposal_ports]
  rfl

/-- A port controller is read from the table of them. -/
theorem State.port_congr (h : t.ports = s.ports) (q : Port) : t.port q = s.port q := by
  simp only [State.port, h]

/-! #### The answers one by one -/

theorem nextEventAnswer_quiet (p : Port) (s : State) : Quiet s (nextEventAnswer p s) := by
  unfold nextEventAnswer
  split <;> exact .of_store rfl rfl ⟨rfl, rfl, rfl⟩

theorem Referred.resolveProposal (h : Referred T F s) (pr : Proposal) (r : ProposalResult) :
    Referred T F (s.resolveProposal pr r) := h.store (s.resolveProposal_store pr r)

theorem Referred.of_pool (h : Referred T F s) (hp : t.pool = s.pool) (hc : t.conduits = s.conduits) :
    Referred T F t := by
  have : Referred T F ({ s with partition := t.partition } : State) :=
    { sound :=
        { tidy := ⟨h.sound.tidy.distinct, h.sound.tidy.idle⟩
          named := ⟨h.sound.named.queued, h.sound.named.held⟩
          fills := ⟨h.sound.fills.filling, h.sound.fills.filled⟩ }
      counted := ⟨h.counted.live, h.counted.others⟩ }
  exact this.store ⟨hp, hc, rfl⟩

theorem Referred.adoptProposal (h : Referred T F s) (pr : Proposal) : Referred T F (s.adoptProposal pr) := by
  unfold State.adoptProposal
  split
  · exact h.resolveProposal pr _
  · have adopted : ∀ part, Referred T F ({ s with partition := part } : State) := fun _ => h.of_pool rfl rfl
    exact (adopted _).resolveProposal pr _

theorem proposeAnswer_quiet (p : Port) (q : PerPort QuotaArgument) (s : State) : Quiet s (proposeAnswer p q s) := by
  unfold proposeAnswer
  simp only
  split
  · exact .refuse s _
  · split
    · exact .refuse s _
    · split
      · exact .refuse s _
      · split
        · exact .refuse s _
        · refine ⟨rfl, ?_, fun T F h => ?_⟩
          · unfold State.makeProposal
            simp only
            split
            · exact State.appendEvents_ports _ _ _
            · rw [State.adoptProposal_ports, State.appendEvents_ports]
          · unfold State.makeProposal
            have made : ∀ part ps e, Referred T F (({ s with partition := part } : State).appendEvents ps e) :=
              fun part ps e => Referred.appendEvents (s := { s with partition := part }) (h.of_pool rfl rfl) ps e
            simp only
            split
            · exact made _ _ _
            · exact (made _ _ _).adoptProposal _

theorem voteAnswer_quiet (p : Port) (id choice : Byte) (s : State) : Quiet s (voteAnswer p id choice s) := by
  unfold voteAnswer
  split
  · exact .refuse s _
  · split
    · exact .refuse s _
    · split
      · exact .refuse s _
      · split
        · exact .refuse s _
        · exact ⟨rfl, s.resolveProposal_ports _ _, fun _ _ h => h.resolveProposal _ _⟩
        · simp only
          split
          · exact .of_store rfl rfl ⟨rfl, rfl, rfl⟩
          · exact ⟨rfl, State.adoptProposal_ports _ _, fun _ _ h =>
            Referred.adoptProposal (s := { s with partition := _ }) (h.of_pool rfl rfl) _⟩

theorem cancelProposalAnswer_quiet (p : Port) (id : Byte) (s : State) : Quiet s (cancelProposalAnswer p id s) := by
  unfold cancelProposalAnswer
  split
  · exact .refuse s _
  · split
    · exact .refuse s _
    · split
      · exact .refuse s _
      · exact ⟨rfl, s.resolveProposal_ports _ _, fun _ _ h => h.resolveProposal _ _⟩

theorem releaseAnswer_quiet (p : Port) (b : Byte) (q : Half) (s : State) : Quiet s (releaseAnswer p b q s) :=
  State.asMember_elim (fun o _ => .refuse s o) (fun n ch e _ hc he _ => by
    split
    · rename_i d hd
      exact ⟨rfl, (((s.updateEndpoint_surroundings n p _).trans (State.claim_surroundings _ _ _)).trans
        (State.drainCheck_surroundings _ n)).ports, fun T F h =>
          (h.dropHold (c := .release) hc he (List.mem_of_find?_eq_some hd) (fun _ => rfl)).drainCheck n⟩
    · split
      · exact ⟨rfl, (s.updateEndpoint_surroundings n p _).ports,
          fun T F h => h.updateEndpoint_same (fun _ => rfl) (fun _ => rfl) (fun _ => rfl)⟩
      · exact .refuse s _)

/-- The members that a FLUSH has still to empty have the queues they had. -/
theorem Referred.flushMembers {l : List Endpoint} (h : Referred T F s) (hd : (l.map (fun e => e.port)).Nodup)
    {ch : Channel} (hc : s.channel n = some ch) (hl : ∀ e ∈ l, ∃ x ∈ ch.members, x.port = e.port ∧ x.queue = e.queue) :
    Referred T F (l.foldl (fun s e => s.flushMember n e) s) := by
  induction l generalizing s ch with
  | nil => exact h
  | cons e l ih =>
    rw [List.map_cons, List.nodup_cons] at hd
    obtain ⟨x, hx, hxp, hxq⟩ := hl e List.mem_cons_self
    obtain ⟨ch', hc', hm'⟩ : ∃ ch', (s.flushMember n e).channel n = some ch' ∧
        ch'.members = (ch.updateEndpoint e.port (fun e => { e with queue := [] })).members := by
      have hmem : ((s.flushMember n e).channel n).map Channel.members =
          some (ch.updateEndpoint e.port (fun e => { e with queue := [] })).members := by
        unfold State.flushMember
        by_cases he : e.queue.isEmpty = true
        · simp only [he, if_true]
          rw [State.claims_members, State.updateEndpoint, s.updateChannel_of_some n hc, State.setChannel_channel_self]
          rfl
        · simp only [he, Bool.false_eq_true, if_false]
          rw [State.appendEvent_channel, State.claims_members, State.updateEndpoint, s.updateChannel_of_some n hc,
            State.setChannel_channel_self]
          rfl
      exact Option.map_eq_some_iff.1 hmem
    refine ih (h.flushMember hc hx hxp hxq) hd.2 hc' (fun e' he' => ?_)
    obtain ⟨x', hx', hp', hq'⟩ := hl e' (List.mem_cons_of_mem _ he')
    have hne : x'.port ≠ e.port := fun hp => hd.1 (List.mem_map.2 ⟨e', he', by rw [← hp', hp]⟩)
    exact ⟨x', by rw [hm']; exact List.mem_map.2 ⟨x', hx', by rw [if_neg hne]⟩, hp', hq'⟩

theorem flushAnswer_quiet (p : Port) (b : Byte) (s : State) : Quiet s (flushAnswer p b s) :=
  State.asProducer_elim (fun o _ => .refuse s o) (fun n ch hc => by
    have flushed : ∀ x : List Byte, Quiet s
        { state := (ch.members.foldl (fun s e => s.flushMember n e) s).drainCheck n, outcome := .done, fields := x } :=
      fun x => ⟨rfl, ((SameSurroundings.foldl (fun s e => s.flushMember_surroundings n e) _ s).trans
        (State.drainCheck_surroundings _ n)).ports, fun T F h =>
          (h.flushMembers (h.sound.tidy.distinct n ch hc) hc (fun e he => ⟨e, he, rfl, rfl⟩)).drainCheck n⟩
    split
    · exact .refuse s _
    · exact flushed _
    · exact flushed _)

theorem attendAnswer_quiet (p : Port) (target vector : Byte) (argument : Half) (s : State) :
    Quiet s (attendAnswer p target vector argument s) := by
  unfold attendAnswer
  split
  · exact .refuse s _
  · split
    · exact .refuse s _
    · split
      · exact .refuse s _
      · split
        · exact .refuse s _
        · exact .of_store rfl rfl ⟨rfl, rfl, rfl⟩

theorem acceptAttnAnswer_quiet (p : Port) (s : State) : Quiet s (acceptAttnAnswer p s) := by
  unfold acceptAttnAnswer
  split
  · exact .refuse s _
  · have taken : ∀ a, SameStore s ({ s with attention := a } : State) := fun _ => ⟨rfl, rfl, rfl⟩
    exact .of_store rfl (State.appendEvent_ports _ _ _) ((taken _).appendEvent _ _)

theorem withdrawAttnAnswer_quiet (p : Port) (target : Byte) (s : State) : Quiet s (withdrawAttnAnswer p target s) := by
  unfold withdrawAttnAnswer
  split
  · exact .refuse s _
  · split
    · exact .refuse s _
    · split
      · exact .refuse s _
      · exact .of_store rfl rfl ⟨rfl, rfl, rfl⟩
      · exact .of_store rfl rfl ⟨rfl, rfl, rfl⟩

theorem offerAnswer_quiet (p : Port) (ms cl w : Byte) (sz hl : Half) (s : State) :
    Quiet s (offerAnswer p ms cl w sz hl s) := by
  unfold offerAnswer
  split
  · exact .refuse s _
  · split
    · exact .refuse s _
    · split
      · exact .refuse s _
      · split
        · exact .refuse s _
        · split
          · exact .refuse s _
          · split
            · exact .refuse s _
            · rename_i n hn
              refine ⟨rfl, (State.appendEvents_ports _ _ _), fun T F h => h.makeOffer ?_ (Port.nodup_filter _) _ _ _ _⟩
              have := List.find?_some hn
              simpa using this

theorem answerAnswer_quiet (p : Port) (b g ch wl : Byte) (sl : Half) (s : State) :
    Quiet s (answerAnswer p b g ch wl sl s) :=
  State.onConduit_elim (fun o _ => .refuse s o) (fun n ch hc => by
    split
    · exact .refuse s _
    · split
      · exact .refuse s _
      · exact .refuse s _
      · rename_i d hd
        split
        · exact .refuse s _
        · split
          · exact .refuse s _
          · split
            · exact .refuse s _
            · exact ⟨rfl, (s.failOffer_surroundings n _ _).ports, fun T F h => h.failOffer hc hd _ _⟩
            · split
              · refine ⟨rfl, ?_, fun T F h => h.recordAccept hc _ _⟩
                simp only [State.recordAccept]
                split
                · rfl
                · exact State.appendEvents_ports _ _ _
              · exact .refuse s _)

theorem closeAnswer_quiet (p : Port) (b : Byte) (s : State) : Quiet s (closeAnswer p b s) :=
  State.asProducer_elim (fun o _ => .refuse s o) (fun n ch hc => by
    split
    · rename_i d hd
      exact ⟨rfl, (s.failOffer_surroundings n _ _).ports, fun T F h => h.failOffer hc hd _ _⟩
    · exact ⟨rfl, (((s.setChannel_surroundings n _).trans (State.appendEvents_surroundings _ _ _)).trans
        (State.drainCheck_surroundings _ n)).ports, fun T F h =>
          ((h.setChannel_members hc ch.drain_members (fun _ hd => Channel.drain_offered hd)).appendEvents _ _).drainCheck n⟩
    · exact .refuse s _)

theorem leaveAnswer_quiet (p : Port) (b : Byte) (s : State) : Quiet s (leaveAnswer p b s) :=
  State.asMember_elim (fun o _ => .refuse s o) (fun n _ _ _ _ _ _ => ⟨rfl, (s.removeMember_surroundings n p _).ports, fun _ _ h => h.removeMember n p _⟩)

theorem conduitInfoAnswer_quiet (b : Byte) (s : State) : Quiet s (conduitInfoAnswer b s) := by
  unfold conduitInfoAnswer
  split
  · exact .refuse s _
  · exact .of_store rfl rfl (.refl s)

/-- What a POST answers: a refusal, which leaves every descriptor as it is, or the fill it begins in the descriptor at
the head of the list. -/
def PostAnswered (s : State) (p : Port) (length : Half) (a : Answer) : Prop :=
  (Quiet s a ∧ a.outcome ≠ .done ∧ ∀ k, a.state.segment k = s.segment k) ∨
  ∃ n h rest, s.pool.freeList = h :: rest ∧
    a = { state := s.startFill h p n length.toNat, outcome := .done, handle := some h }

theorem postAnswer_answered (p : Port) (b : Byte) (length : Half) (s : State) :
    PostAnswered s p length (postAnswer p b length s) := by
  have refused : ∀ o, o ≠ .done → PostAnswered s p length (Machine.refuse s o) :=
    fun o ho => .inl ⟨.refuse s o, ho, fun _ => rfl⟩
  refine State.asProducer_elim refused (fun n ch hc => ?_)
  split
  · exact refused _ (by simp)
  · exact refused _ (by simp)
  · rename_i f hf
    split
    · exact refused _ (by simp)
    · split
      · exact refused _ (by simp)
      · split
        · refine .inl ⟨⟨rfl, (s.updateChannel_surroundings n _).ports, fun T F h => ?_⟩, by simp [Machine.refuse],
            fun k => s.updateChannel_segment k n _⟩
          simp only [Machine.refuse]
          rw [s.updateChannel_of_some n hc]
          exact h.setChannel_members hc rfl (fun _ hd => Stage.mapFlow_offered hd)
        · split
          · exact refused _ (by simp)
          · split
            · exact refused _ (by simp)
            · split
              · exact refused _ (by simp)
              · rename_i k rest hk
                exact .inr ⟨n, k, rest, hk, rfl⟩

end Answers

end Sys2Proof.Machine


/-! ### References: rows -/

namespace Sys2Proof.Machine

section Rows

variable {s t : State} {X F : Port → Option Handle} {n : ConduitNo} {p : Port}

/-- The law of the references, with the fills and transfers that the port controllers name. -/
def Refers (s : State) : Prop := Referred (carried s.transferHandle?) s.fillHandle? s

theorem Refers.law (h : Refers s) : ReferenceLaw s := Referred.law h

theorem ReferenceLaw.refers (hl : ReferenceLaw s) (hc : ConduitLaw s) : Refers s := hl.referred hc.tidy

/-- The law between operations, once the port controllers name what is in flight. -/
theorem Referred.refers (hr : Referred (carried X) F s) (hX : ∀ q, s.transferHandle? q = X q)
    (hF : ∀ q, s.fillHandle? q = F q) : Refers s := by
  obtain rfl : s.transferHandle? = X := funext hX
  obtain rfl : s.fillHandle? = F := funext hF
  exact hr

/-- Where pool, slots, fills and transfers are as they were. -/
theorem Refers.same (h : Refers s) (hs : SameStore s t) (hX : ∀ q, t.transferHandle? q = s.transferHandle? q)
    (hF : ∀ q, t.fillHandle? q = s.fillHandle? q) : Refers t :=
  (Referred.store h hs).refers hX hF

theorem State.handles_congr (h : t.ports = s.ports) (q : Port) :
    t.transferHandle? q = s.transferHandle? q ∧ t.fillHandle? q = s.fillHandle? q :=
  ⟨State.transferHandle?_congr (State.port_congr h q), State.fillHandle?_congr (State.port_congr h q)⟩

/-- One port controller replaced by one in neither a fill nor a transfer. -/
theorem Refers.setPort_idle (h : Refers s) {c : PortController} (hX : s.transferHandle? p = none)
    (hF : s.fillHandle? p = none) (hX' : (s.setPort p c).transferHandle? p = none)
    (hF' : (s.setPort p c).fillHandle? p = none) : Refers (s.setPort p c) := by
  have other : ∀ q, q ≠ p → (s.setPort p c).port q = s.port q := fun q hq => State.setPort_port_ne _ _ hq
  refine h.same (s.setPort_store p c) (fun q => ?_) (fun q => ?_)
  · by_cases hq : q = p
    · rw [hq, hX, hX']
    · exact State.transferHandle?_congr (other q hq)
  · by_cases hq : q = p
    · rw [hq, hF, hF']
    · exact State.fillHandle?_congr (other q hq)

/-! #### The acceptance instant -/

theorem State.writeOutcome_port (s : State) (p : Port) (c : Command) (a : Answer) (named : Option ConduitNo) (q : Port) :
    (s.writeOutcome p c a named).port q = if q = p then { s.port p with
      outcome := if (c = .status ∨ c = .detach) ∧ a.outcome = .done then (s.port p).outcome
        else { outcome := a.outcome, command := c.code, conduit := a.conduit.or named, handle := a.handle } }
      else s.port q := by
  unfold State.writeOutcome
  split
  · split
    · rename_i e; rw [e]
    · rfl
  · rw [State.setPort_port]

theorem State.accept_port_ne {c : Command} {named : Option ConduitNo} {x : Transaction} {a : Answer} {q : Port}
    (hq : q ≠ p) : (State.accept p c named x a).port q = a.state.port q := by
  unfold State.accept State.enterReply
  rw [State.setPort_port_ne _ _ hq, State.writeOutcome_port, if_neg hq]

theorem State.accept_port_self (p : Port) (c : Command) (named : Option ConduitNo) (x : Transaction) (a : Answer) :
    ((State.accept p c named x a).port p).outcome =
      (if (c = .status ∨ c = .detach) ∧ a.outcome = .done then (a.state.port p).outcome
        else { outcome := a.outcome, command := c.code, conduit := a.conduit.or named, handle := a.handle }) ∧
    ∃ y, ((State.accept p c named x a).port p).transaction = some y ∧
      y.phase = (if c = .post ∧ a.outcome = .done then .payload else .reply) ∧ y.byteCount = 1 + c.argumentCount := by
  unfold State.accept State.enterReply
  rw [State.setPort_port_self, State.writeOutcome_port, if_pos rfl]
  exact ⟨rfl, _, rfl, rfl, rfl⟩

/-- An acceptance that places no handle leaves its port in neither a fill nor a transfer. -/
theorem State.accept_idle {c : Command} {named : Option ConduitNo} {x : Transaction} {a : Answer}
    (ha : a.handle = none)
    (hkept : c = .status ∨ c = .detach → (a.state.port p).outcome.isRead = true → (a.state.port p).outcome.handle = none) :
    (State.accept p c named x a).transferHandle? p = none ∧ (State.accept p c named x a).fillHandle? p = none := by
  obtain ⟨ho, y, hy, hph, -⟩ := State.accept_port_self p c named x a
  by_cases hk : (c = .status ∨ c = .detach) ∧ a.outcome = .done
  · have hpost : ¬ (c = .post ∧ a.outcome = .done) := by
      rintro ⟨rfl, -⟩
      simp at hk
    rw [if_pos hk] at ho
    rw [if_neg hpost] at hph
    simpa [State.transferHandle?, State.fillHandle?, hy, hph, ho] using hkept hk.1
  · rw [if_neg hk] at ho
    have hh : ((State.accept p c named x a).port p).outcome.handle = none := by rw [ho]; exact ha
    simp [State.transferHandle?, State.fillHandle?, hy, hh]

/-- An accepted read leaves its port in the transfer of its handle. -/
theorem State.accept_read {c : Command} {named : Option ConduitNo} {x : Transaction} {a : Answer} {h : Handle}
    (hc : c ∈ readCommands) (ho : a.outcome = .done) (ha : a.handle = some h) :
    (State.accept p c named x a).transferHandle? p = some h ∧ (State.accept p c named x a).fillHandle? p = none := by
  obtain ⟨hout, y, hy, hph, -⟩ := State.accept_port_self p c named x a
  have h1 : ¬ ((c = .status ∨ c = .detach) ∧ a.outcome = .done) := by
    rintro ⟨rfl | rfl, -⟩ <;> exact absurd hc (by decide)
  have h2 : ¬ (c = .post ∧ a.outcome = .done) := by
    rintro ⟨rfl, -⟩; exact absurd hc (by decide)
  rw [if_neg h1] at hout
  rw [if_neg h2] at hph
  have hread : ((State.accept p c named x a).port p).outcome.isRead = true := by
    rw [hout]
    simp only [OutcomeRecord.isRead, ho, beq_self_eq_true, Bool.true_and, List.contains_iff_mem]
    exact List.mem_map_of_mem hc
  have hh : ((State.accept p c named x a).port p).outcome.handle = some h := by rw [hout]; exact ha
  simp [State.transferHandle?, State.fillHandle?, hy, hph, hread, hh]

/-- An accepted POST leaves its port in the fill of its handle. -/
theorem State.accept_post {named : Option ConduitNo} {x : Transaction} {a : Answer} {h : Handle}
    (ho : a.outcome = .done) (ha : a.handle = some h) :
    (State.accept p .post named x a).transferHandle? p = none ∧
      (State.accept p .post named x a).fillHandle? p = some h := by
  obtain ⟨hout, y, hy, hph, -⟩ := State.accept_port_self p .post named x a
  simp [State.transferHandle?, State.fillHandle?, hy, hph, hout, ho, ha]

/-- The acceptance of an answer whose state has the law with these fills and transfers. -/
theorem Referred.accept {c : Command} {named : Option ConduitNo} {x : Transaction} {a : Answer} {v w : Option Handle}
    (hr : Referred (carried (Function.update s.transferHandle? p v)) (Function.update s.fillHandle? p w) a.state)
    (hports : ∀ q, q ≠ p → a.state.port q = s.port q)
    (hp : (State.accept p c named x a).transferHandle? p = v ∧ (State.accept p c named x a).fillHandle? p = w) :
    Refers (State.accept p c named x a) := by
  have other : ∀ q, q ≠ p → (State.accept p c named x a).port q = s.port q := fun q hq =>
    (State.accept_port_ne hq).trans (hports q hq)
  refine (hr.store (State.accept_store p c named x a)).refers (fun q => ?_) (fun q => ?_)
  · by_cases hq : q = p
    · rw [hq, Function.update_self, hp.1]
    · rw [Function.update_of_ne hq, State.transferHandle?_congr (other q hq)]
  · by_cases hq : q = p
    · rw [hq, Function.update_self, hp.2]
    · rw [Function.update_of_ne hq, State.fillHandle?_congr (other q hq)]

/-- What an owning block answers on a port in neither a fill nor a transfer: it moves no reference, or begins one
transfer or one fill for a read or a POST. -/
def Answers (s : State) (p : Port) (c : Command) (a : Answer) : Prop :=
  ∃ v w, Referred (carried (Function.update s.transferHandle? p v)) (Function.update s.fillHandle? p w) a.state ∧
    (∀ q, q ≠ p → a.state.port q = s.port q) ∧
    ((v = none ∧ w = none ∧ a.handle = none ∧
        (c = .status ∨ c = .detach →
          (a.state.port p).outcome.isRead = true → (a.state.port p).outcome.handle = none)) ∨
      (∃ h, v = some h ∧ w = none ∧ c ∈ readCommands ∧ a.outcome = .done ∧ a.handle = some h) ∨
      (∃ h, v = none ∧ w = some h ∧ c = .post ∧ a.outcome = .done ∧ a.handle = some h))

theorem Answers.accept {c : Command} {a : Answer} (h : Answers s p c a) (named : Option ConduitNo) (x : Transaction) :
    Refers (State.accept p c named x a) := by
  obtain ⟨v, w, hr, hports, ⟨rfl, rfl, ha, hk⟩ | ⟨h, rfl, rfl, hc, ho, ha⟩ | ⟨h, rfl, rfl, rfl, ho, ha⟩⟩ := h
  · exact hr.accept hports (State.accept_idle ha hk)
  · exact hr.accept hports (State.accept_read hc ho ha)
  · exact hr.accept hports (State.accept_post ho ha)

theorem update_none {X : Port → Option Handle} (h : X p = none) : Function.update X p none = X := by
  rw [← h, Function.update_eq_self]

/-- On a port in neither a fill nor a transfer. -/
theorem Refers.idle (h : Refers s) (hX : s.transferHandle? p = none) (hF : s.fillHandle? p = none) :
    Referred (carried (Function.update s.transferHandle? p none)) (Function.update s.fillHandle? p none) s := by
  rw [update_none hX, update_none hF]
  exact h

theorem Quiet.answers {c : Command} {a : Answer} (hq : Quiet s a) (h : Refers s) (hX : s.transferHandle? p = none)
    (hF : s.fillHandle? p = none)
    (hk : c = .status ∨ c = .detach → (s.port p).outcome.isRead = true → (s.port p).outcome.handle = none) :
    Answers s p c a :=
  ⟨none, none, hq.refs _ _ (h.idle hX hF), fun q _ => State.port_congr hq.ports q,
    .inl ⟨rfl, rfl, hq.handle, by rw [State.port_congr hq.ports]; exact hk⟩⟩

theorem Answers.refuse {c : Command} (h : Refers s) (hX : s.transferHandle? p = none) (hF : s.fillHandle? p = none)
    (hc : ¬ (c = .status ∨ c = .detach)) (o : OutcomeCode) : Answers s p c (refuse s o) :=
  (Quiet.refuse s o).answers h hX hF (fun e => absurd e hc)

theorem State.takeHead_surroundings (s : State) (p : Port) (n : ConduitNo) (ch : Channel) (h : Handle) :
    SameSurroundings s (s.takeHead p n ch h) :=
  ((s.updateEndpoint_surroundings n p _).trans (State.claim_surroundings _ .take h)).trans
    (State.drainCheck_surroundings _ n)

theorem State.deliver_surroundings (s : State) (h : Handle) (g : Segment) (n : ConduitNo) (ch : Channel) (f : Flow) :
    SameSurroundings s (s.deliver h g n ch f) := by
  rw [State.deliver_eq]
  exact ((s.setChannel_surroundings n _).trans (State.setSegment_surroundings _ h _)).trans
    (State.appendEvents_surroundings _ _ _)

theorem State.transferHandle?_silent (h : (s.port p).transaction = none) : s.transferHandle? p = none := by
  simp [State.transferHandle?, h]

theorem State.fillHandle?_silent (h : (s.port p).transaction = none) : s.fillHandle? p = none := by
  simp [State.fillHandle?, h]

/-! #### The answers with a reference of their port -/

theorem takeAnswer_answers (h : Refers s) (hX : s.transferHandle? p = none) (hF : s.fillHandle? p = none) (b : Byte) :
    Answers s p .take (takeAnswer p b s) := by
  have refused := Answers.refuse (c := .take) h hX hF (by simp)
  refine State.asMember_elim (fun o _ => refused o) (fun n ch e f hc he hf => ?_)
  split
  · exact refused _
  · rename_i k rest hq
    split
    · exact refused _
    · refine ⟨some k, none, ?_, fun q _ => ?_, .inr (.inl ⟨k, rfl, rfl, by simp [readCommands], rfl, rfl⟩)⟩
      · rw [update_none hF]
        exact h.take hX hc hf he hq
      · exact State.port_congr (s.takeHead_surroundings p n ch k).ports q

theorem takeAnyAnswer_answers (h : Refers s) (hX : s.transferHandle? p = none) (hF : s.fillHandle? p = none) :
    Answers s p .takeAny (takeAnyAnswer p s) := by
  have refused := Answers.refuse (c := .takeAny) h hX hF (by simp)
  unfold takeAnyAnswer
  split
  · split <;> exact refused _
  · split
    · exact refused _
    · rename_i ch e k hw
      obtain ⟨hc, ⟨f, hf⟩, he, rest, hq⟩ := State.waiting?_some hw
      refine ⟨some k, none, ?_, fun q hq => ?_, .inr (.inl ⟨k, rfl, rfl, by simp [readCommands], rfl, rfl⟩)⟩
      · rw [update_none hF]
        exact (h.take hX hc hf he hq).store (State.setPort_store _ p _)
      · rw [State.setPort_port_ne _ _ hq]
        exact State.port_congr (s.takeHead_surroundings p _ ch k).ports q

theorem peekAnswer_answers (h : Refers s) (hX : s.transferHandle? p = none) (hF : s.fillHandle? p = none) (b : Byte) :
    Answers s p .peek (peekAnswer p b s) := by
  have refused := Answers.refuse (c := .peek) h hX hF (by simp)
  refine State.asMember_elim (fun o _ => refused o) (fun n ch e f hc he hf => ?_)
  split
  · exact refused _
  · rename_i k rest hq
    refine ⟨some k, none, ?_, fun q _ => ?_, .inr (.inl ⟨k, rfl, rfl, by simp [readCommands], rfl, rfl⟩)⟩
    · have := State.queued_pos hc (Channel.endpoint?_some he).1 (h := k) (by rw [hq]; exact List.mem_cons_self)
      rw [update_none hF]
      exact h.beginTransfer hX (fun _ => rfl) (by omega)
    · exact State.port_congr (s.claim_surroundings _ k).ports q

theorem readHeldAnswer_answers (h : Refers s) (hX : s.transferHandle? p = none) (hF : s.fillHandle? p = none) (b : Byte)
    (wanted : Half) : Answers s p .readHeld (readHeldAnswer p b wanted s) := by
  have refused := Answers.refuse (c := .readHeld) h hX hF (by simp)
  refine State.asMember_elim (fun o _ => refused o) (fun n ch e f hc he hf => ?_)
  split
  · exact refused _
  · rename_i d hd
    refine ⟨some d.handle, none, ?_, fun q _ => ?_,
      .inr (.inl ⟨d.handle, rfl, rfl, by simp [readCommands], rfl, rfl⟩)⟩
    · have := State.held_pos hc (Channel.endpoint?_some he).1 (List.mem_of_find?_eq_some hd)
      rw [update_none hF]
      exact h.beginTransfer hX (fun _ => rfl) (by omega)
    · exact State.port_congr (s.claim_surroundings _ d.handle).ports q

theorem postAnswer_answers (h : Refers s) (hl : AccountingLaw s) (hX : s.transferHandle? p = none)
    (hF : s.fillHandle? p = none) (b : Byte) (length : Half) : Answers s p .post (postAnswer p b length s) := by
  obtain ⟨hq, -, -⟩ | ⟨n, k, rest, hk, ha⟩ := postAnswer_answered p b length s
  · exact hq.answers h hX hF (by simp)
  · have hfree : s.segment k = none := (hl.freeListed k).1 (by rw [hk]; exact List.mem_cons_self)
    rw [ha]
    refine ⟨none, some k, ?_, fun q _ => ?_, .inr (.inr ⟨k, rfl, rfl, rfl, rfl, rfl⟩)⟩
    · rw [update_none hX]
      exact h.startFill hF hfree _
    · exact State.port_congr (State.updateChannel_surroundings _ n _).ports q

/-! #### The end of a transaction -/

/-- A port's transaction ended, where it is in neither a fill nor a transfer. -/
theorem Refers.endTransaction (h : Refers s) (hX : s.transferHandle? p = none) (hF : s.fillHandle? p = none) :
    Refers (s.endTransaction p) :=
  h.setPort_idle hX hF (State.transferHandle?_silent (by rw [State.setPort_port_self]))
    (State.fillHandle?_silent (by rw [State.setPort_port_self]))

/-- The end of a port's transaction, once what it had in flight is ended. -/
theorem Referred.endTransaction {u : State} (hr : Referred (carried (Function.update s.transferHandle? p none))
    (Function.update s.fillHandle? p none) u) (hports : ∀ q, q ≠ p → u.port q = s.port q) : Refers (u.endTransaction p) := by
  have other : ∀ q, q ≠ p → (u.endTransaction p).port q = s.port q := fun q hq =>
    (State.setPort_port_ne _ _ hq).trans (hports q hq)
  have silent : ((u.endTransaction p).port p).transaction = none := by
    rw [State.endTransaction, State.setPort_port_self]
  refine (hr.store (u.setPort_store p _)).refers (fun q => ?_) (fun q => ?_)
  · by_cases hq : q = p
    · rw [hq, Function.update_self]; exact State.transferHandle?_silent silent
    · rw [Function.update_of_ne hq]; exact State.transferHandle?_congr (other q hq)
  · by_cases hq : q = p
    · rw [hq, Function.update_self]; exact State.fillHandle?_silent silent
    · rw [Function.update_of_ne hq]; exact State.fillHandle?_congr (other q hq)

theorem Refers.endTransfer (h : Refers s) (hF : s.fillHandle? p = none) :
    Refers ((s.endTransfer p).endTransaction p) := by
  unfold State.endTransfer
  cases hX : s.transferHandle? p with
  | none => exact h.endTransaction hX hF
  | some k =>
    refine Referred.endTransaction (s := s) ?_ (fun q hq => ?_)
    · rw [update_none hF]
      exact (Referred.endTransfer h hX).store (State.setPort_store _ p _)
    · rw [State.setPort_port_ne _ _ hq]
      exact State.port_congr (s.claim_surroundings _ k).ports q

theorem Refers.completeFill (h : Refers s) {k : Handle} (hF : s.fillHandle? p = some k) (count : Nat) :
    Refers ((s.completeFill p k count).endTransaction p) := by
  obtain ⟨g, hg, -, -⟩ := h.sound.fills.filled p k hF
  have hX : s.transferHandle? p = none := by
    obtain ⟨x, hx, hph, -⟩ := State.transaction_of_fill hF
    exact State.no_transfer_of_phase hx (by rw [hph]; simp)
  have freed : ∀ o, Refers (((s.freeDescriptor k).setOutcome p o).endTransaction p) := fun o => by
    refine Referred.endTransaction (s := s) ?_ (fun q hq => ?_)
    · rw [update_none hX]
      exact (Referred.freeFill h hF).store (State.setPort_store _ p _)
    · rw [State.setOutcome, State.setPort_port_ne _ _ hq]
      exact State.port_congr (s.freeDescriptor_surroundings k).ports q
  unfold State.completeFill
  rw [hg]
  simp only
  split
  · exact freed _
  · split
    · exact freed _
    · rename_i n ch f ht
      refine Referred.endTransaction (s := s) ?_ (fun q hq => ?_)
      · rw [update_none hX]
        exact (Referred.deliver h hF hg ht).store (State.setPort_store _ p _)
      · rw [State.setOutcome, State.setPort_port_ne _ _ hq]
        exact State.port_congr (s.deliver_surroundings k g n ch f).ports q

theorem Refers.releaseSelect (h : Refers s) (p : Port) : Refers (s.releaseSelect p) := by
  unfold State.releaseSelect
  split
  · exact h
  · rename_i x hx
    have noX : x.phase ≠ .reply → s.transferHandle? p = none := State.no_transfer_of_phase hx
    have noF : x.phase ≠ .payload → s.fillHandle? p = none := State.no_fill_of_phase hx
    split
    · rename_i hph
      exact h.endTransaction (noX (by simp [hph])) (noF (by simp [hph]))
    · rename_i hph
      exact h.setPort_idle (noX (by simp [hph])) (noF (by simp [hph]))
        (State.transferHandle?_silent (by rw [State.setPort_port_self]))
        (State.fillHandle?_silent (by rw [State.setPort_port_self]))
    · rename_i hph
      exact h.endTransfer (noF (by simp [hph]))
    · rename_i hph
      split
      · rename_i hF
        exact h.endTransaction (noX (by simp [hph])) hF
      · rename_i k hF
        exact h.completeFill hF _

theorem Refers.abort (h : Refers s) (p : Port) : Refers (s.abort p) := by
  unfold State.abort
  split
  · rename_i k hF
    have hX : s.transferHandle? p = none := by
      obtain ⟨x, hx, hph, -⟩ := State.transaction_of_fill hF
      exact State.no_transfer_of_phase hx (by rw [hph]; simp)
    refine Referred.endTransaction (s := s) ?_ (fun q _ => State.port_congr (s.freeDescriptor_surroundings k).ports q)
    rw [update_none hX]
    exact Referred.freeFill h hF
  · rename_i hF
    exact h.endTransfer hF

theorem Refers.receivePayload (h : Refers s) (p : Port) (bytes : List Byte) : Refers (s.receivePayload p bytes) :=
  (Referred.receivePayload h p bytes).refers (fun q => (s.receivePayload_handles p bytes q).2)
    (fun q => (s.receivePayload_handles p bytes q).1)

/-! #### Rows -/

/-- A port that ATTACHed or departed has neither a fill nor a transfer where it had none. -/
theorem Refers.attach (h : Refers s) (hX : s.transferHandle? p = none) (hF : s.fillHandle? p = none) :
    Answers s p .attach { state := s.attach p, outcome := .done } :=
  ⟨none, none, (h.idle hX hF).store (s.attach_store p), fun q hq => by
    rw [State.port, s.attach_ports p, PerPort.get_set, if_neg hq]; rfl, .inl ⟨rfl, rfl, rfl, by simp⟩⟩

theorem Refers.detach (h : Refers s) (hX : s.transferHandle? p = none) (hF : s.fillHandle? p = none) :
    Answers s p .detach { state := s.depart p .detach .detached, outcome := .done } :=
  ⟨none, none, (h.idle hX hF).depart p _ _, fun q hq => by
    rw [State.port, s.depart_ports p, PerPort.get_set, if_neg hq]; rfl, .inl ⟨rfl, rfl, rfl, fun _ _ => by
    rw [State.port, s.depart_ports p, PerPort.get_set, if_pos rfl]; rfl⟩⟩

theorem Refers.transact (h : Refers s) (hp : PortLaw s) (c : Command) (args : List Byte) (named : Option ConduitNo)
    (owner : State → Answer)
    (ho : s.transferHandle? p = none → s.fillHandle? p = none → Answers s p c (owner s)) :
    Refers (s.transact p c args named owner) := by
  unfold State.transact
  split
  · rename_i shown x _ hx
    have frame : x.phase ≠ .reply → x.phase ≠ .payload → Refers
        (if x.phase.continuedBy c.code args then
          match admission c shown with
          | some refusal => State.accept p c named x (refuse s refusal)
          | none => State.accept p c named x (owner s)
        else s) := fun h1 h2 => by
      have hX := State.no_transfer_of_phase hx h1
      have hF := State.no_fill_of_phase hx h2
      split
      · split
        · exact ((Quiet.refuse s _).answers h hX hF (fun _ hr => hp.readEnds p hr hX)).accept named x
        · exact (ho hX hF).accept named x
      · exact h
    split
    · exact h
    · exact h.receivePayload p _
    · rename_i hph; exact frame (by simp [hph]) (by simp [hph])
    · rename_i hph; exact frame (by simp [hph]) (by simp [hph])
  · exact h

theorem Refers.refuseCode (h : Refers s) (p : Port) (code : Byte) : Refers (s.refuseCode p code) := by
  unfold State.refuseCode
  split
  · rename_i shown x _ hx
    split
    · exact h
    · exact h
    · exact h.receivePayload p _
    · rename_i hph
      exact h.setPort_idle (State.no_transfer_of_phase hx (by simp [hph])) (State.no_fill_of_phase hx (by simp [hph]))
        (by simp [State.transferHandle?]) (by simp [State.fillHandle?])
  · exact h

theorem Refers.refuseTruncated (h : Refers s) (p : Port) (code : Byte) (args : List Byte) :
    Refers (s.refuseTruncated p code args) := by
  unfold State.refuseTruncated
  split
  · rename_i shown x _ hx
    split
    · rename_i hph
      have h1 : x.phase ≠ .reply := fun e => by rw [e] at hph; cases hph
      have h2 : x.phase ≠ .payload := fun e => by rw [e] at hph; cases hph
      exact h.setPort_idle (State.no_transfer_of_phase hx h1) (State.no_fill_of_phase hx h2)
        (State.transferHandle?_silent (by rw [State.setPort_port_self]))
        (State.fillHandle?_silent (by rw [State.setPort_port_self]))
    · exact h
  · exact h

/-- Port controllers changed in neither their transactions nor their records. -/
theorem Refers.same_controllers (h : Refers s) (hs : SameStore s t)
    (hq : ∀ q, (t.port q).transaction = (s.port q).transaction ∧ (t.port q).outcome = (s.port q).outcome) : Refers t :=
  h.same hs (fun q => by simp only [State.transferHandle?, hq]) (fun q => by simp only [State.fillHandle?, hq])

theorem Refers.setPort_same (h : Refers s) {c : PortController} (ht : c.transaction = (s.port p).transaction)
    (ho : c.outcome = (s.port p).outcome) : Refers (s.setPort p c) :=
  h.same_controllers (s.setPort_store p c) (fun q => by
    rw [State.setPort_port]
    split
    · rename_i e; rw [e]; exact ⟨ht, ho⟩
    · exact ⟨rfl, rfl⟩)

theorem State.abort_silent (s : State) (p : Port) : ((s.abort p).port p).transaction = none := by
  unfold State.abort
  split <;> rw [State.endTransaction, State.setPort_port_self]

theorem Refers.portResetAsserted (h : Refers s) (hp : PortLaw s) (ht : execPortResetAsserted p s = .next t) : Refers t := by
  have aborted := h.abort p
  have silentX := State.transferHandle?_silent (s.abort_silent p)
  have silentF := State.fillHandle?_silent (s.abort_silent p)
  unfold execPortResetAsserted at ht
  simp only [Host.Outcome.next.injEq] at ht
  subst ht
  split
  · have gone : ((s.abort p).depart p .reset .held).ports = _ := State.depart_ports _ p .reset .held
    have silent : (((s.abort p).depart p .reset .held).port p).transaction = none := by
      rw [State.port, gone, PerPort.get_set, if_pos rfl]
      exact s.abort_silent p
    have other : ∀ q, q ≠ p → ((s.abort p).depart p .reset .held).port q = (s.abort p).port q := fun q hq => by
      rw [State.port, gone, PerPort.get_set, if_neg hq]; rfl
    refine Refers.setPort_same (Referred.refers (Referred.depart aborted p _ _) (fun q => ?_) (fun q => ?_)) rfl rfl
    · by_cases hq : q = p
      · rw [hq, silentX, State.transferHandle?_silent silent]
      · exact State.transferHandle?_congr (other q hq)
    · by_cases hq : q = p
      · rw [hq, silentF, State.fillHandle?_silent silent]
      · exact State.fillHandle?_congr (other q hq)
  · have held : Refers ((s.abort p).enterHeld p) :=
      aborted.setPort_idle silentX silentF
        (State.transferHandle?_silent (by rw [State.setPort_port_self]; exact s.abort_silent p))
        (State.fillHandle?_silent (by rw [State.setPort_port_self]; exact s.abort_silent p))
    exact held.setPort_same rfl rfl
  · rename_i hheld
    have hna : ¬ s.Attached p := fun ha => by
      have : (s.port p).state = .attached := ha
      rw [hheld] at this
      cases this
    obtain ⟨hF, hX⟩ := hp.idleWhileDetached p hna
    split
    · have ended := h.endTransaction hX hF
      have silent : ((s.endTransaction p).port p).transaction = none := by
        rw [State.endTransaction, State.setPort_port_self]
      have reset : Refers ((s.endTransaction p).resetOutcome p) :=
        ended.setPort_idle (State.transferHandle?_silent silent) (State.fillHandle?_silent silent)
          (State.transferHandle?_silent (by rw [State.setPort_port_self]; exact silent))
          (State.fillHandle?_silent (by rw [State.setPort_port_self]; exact silent))
      exact reset.setPort_same rfl rfl
    · exact h.setPort_same rfl rfl

theorem Refers.portResetReleased (h : Refers s) (ht : execPortResetReleased p s = .next t) : Refers t := by
  unfold execPortResetReleased at ht
  simp only [Host.Outcome.next.injEq] at ht
  subst ht
  split
  · split
    · have freed : Refers (s.setPort p { s.port p with state := .detached }) := h.setPort_same rfl rfl
      exact freed.setPort_same rfl rfl
    · exact h.setPort_same rfl rfl
    · exact h.setPort_same rfl rfl
  · exact h

theorem State.releaseSelect_silent (s : State) (p : Port) : ((s.releaseSelect p).port p).transaction = none := by
  unfold State.releaseSelect
  split
  · assumption
  · split
    · rw [State.endTransaction, State.setPort_port_self]
    · rw [State.endTruncated, State.setPort_port_self]
    · rw [State.endTransaction, State.setPort_port_self]
    · split <;> rw [State.endTransaction, State.setPort_port_self]

theorem Refers.selectAsserted (h : Refers s) (ht : execSelectAsserted p s = .next t) : Refers t := by
  unfold execSelectAsserted at ht
  simp only [Host.Outcome.next.injEq] at ht
  subst ht
  split
  · exact h
  · have silent := s.releaseSelect_silent p
    exact (h.releaseSelect p).setPort_idle (State.transferHandle?_silent silent) (State.fillHandle?_silent silent)
      (by simp [State.transferHandle?]) (by simp [State.fillHandle?])

/-! #### Time -/

theorem State.takeExpiry_ports (s : State) (e : Expiry) : (s.takeExpiry e).ports = s.ports := by
  cases e with
  | offer n => exact (s.lapseOffer_surroundings n).ports
  | proposal =>
    unfold State.takeExpiry State.lapseProposal
    simp only
    split
    · rfl
    · split
      · exact s.resolveProposal_ports _ _
      · rfl
  | hold n p q => exact (s.lapseHold_surroundings n p q).ports

theorem Refers.takeExpiry (h : Refers s) (e : Expiry) : Refers (s.takeExpiry e) := by
  have handles := State.handles_congr (s.takeExpiry_ports e)
  have refers : Referred (carried s.transferHandle?) s.fillHandle? (s.takeExpiry e) := by
    cases e with
    | offer n => exact Referred.lapseOffer h n
    | proposal => exact Referred.store h s.lapseProposal_store
    | hold n p q => exact Referred.lapseHold h n p q
  exact refers.refers (fun q => (handles q).1) (fun q => (handles q).2)

theorem State.endStartUp_controllers (s : State) (q : Port) :
    (s.endStartUp.port q).transaction = (s.port q).transaction ∧
      (s.endStartUp.port q).outcome = (s.port q).outcome := by
  simp only [State.endStartUp, State.port, PerPort.get_map]
  split <;> exact ⟨rfl, rfl⟩

theorem Refers.endStartUp (h : Refers s) : Refers s.endStartUp :=
  h.same_controllers ⟨rfl, rfl, rfl⟩ s.endStartUp_controllers

theorem Refers.countAdvance (h : Refers s) : Refers s.countAdvance := by
  unfold State.countAdvance
  split
  · exact h
  · exact h.endStartUp
  · exact h.same ⟨rfl, rfl, rfl⟩ (fun _ => rfl) (fun _ => rfl)

theorem Refers.advance (h : Refers s) : Refers s.advance :=
  State.advance_keeps s (P := Refers) (fun _ e h => h.takeExpiry e)
    (fun _ _ h => h.same ⟨rfl, rfl, rfl⟩ (fun _ => rfl) (fun _ => rfl)) (fun _ h => h.countAdvance) h

theorem Refers.referencePeriod (h : Refers s) : Refers s.referencePeriod :=
  State.referencePeriod_keeps s (P := Refers) (fun _ e h => h.takeExpiry e)
    (fun _ _ h => h.same ⟨rfl, rfl, rfl⟩ (fun _ => rfl) (fun _ => rfl)) (fun _ h => h.countAdvance)
    (fun _ _ h => h.same ⟨rfl, rfl, rfl⟩ (fun _ => rfl) (fun _ => rfl)) h

theorem State.globalReset_idle (s : State) (q : Port) :
    s.globalReset.fillHandle? q = none ∧ s.globalReset.transferHandle? q = none := by
  have silent : (s.globalReset.port q).transaction = none := by
    simp only [State.globalReset, State.port, PerPort.get_map]
    rfl
  exact ⟨State.fillHandle?_silent silent, State.transferHandle?_silent silent⟩

theorem Refers.globalReset (s : State) : Refers s.globalReset := by
  have hc : ∀ n, s.globalReset.channel n = none := fun n => channel_of_initial rfl n
  refine (referenceLaw_of_free (fun h => segment_of_initial rfl h) hc s.globalReset_idle).referred
    ⟨fun n ch hn => ?_, fun n ch d hn => ?_⟩
  · rw [hc] at hn; cases hn
  · rw [hc] at hn; cases hn

theorem PortLaw.of_pending {rest : List Instr} (hp : PortLaw s) : PortLaw { s with pending := rest } :=
  ⟨hp.heldByReset, hp.heldBeforeOperation, hp.heldOnlyByReset, hp.silentWhileIgnored, hp.rotationRests,
    hp.idleWhileDetached, hp.readEnds, hp.fillsArePosts⟩

/-- Every row keeps the law of the references. -/
theorem exec_refers {i : Instr} (hp : PortLaw s) (hl : AccountingLaw s) (h : Refers s) (hi : exec i s = .next t) :
    Refers t := by
  have command : ∀ {p c args named} {owner : State → Answer},
      (s.transferHandle? p = none → s.fillHandle? p = none → Answers s p c (owner s)) →
      Host.Outcome.next (s.transact p c args named owner) = (.next t : Host.Outcome State Fault Refusal) → Refers t := by
    intro p c args named owner ho he
    cases he
    exact h.transact hp c args named owner ho
  have quiet : ∀ {p c args named} {owner : State → Answer}, Quiet s (owner s) →
      Host.Outcome.next (s.transact p c args named owner) = (.next t : Host.Outcome State Fault Refusal) → Refers t :=
    fun ho => command (fun hX hF => ho.answers h hX hF (fun _ hr => hp.readEnds _ hr hX))
  cases i with
  | status p => exact quiet (.of_store rfl rfl (.refl s)) hi
  | attach p => exact command h.attach hi
  | detach p => exact command h.detach hi
  | nextEvent p => exact quiet (nextEventAnswer_quiet p s) hi
  | offer p ms cl w sz hl => exact quiet (offerAnswer_quiet p ms cl w sz hl s) hi
  | answer p c g ch wl sl => exact quiet (answerAnswer_quiet p c g ch wl sl s) hi
  | close p c => exact quiet (closeAnswer_quiet p c s) hi
  | leave p c => exact quiet (leaveAnswer_quiet p c s) hi
  | flush p c => exact quiet (flushAnswer_quiet p c s) hi
  | conduitInfo p c => exact quiet (conduitInfoAnswer_quiet c s) hi
  | post p c len => exact command (fun hX hF => postAnswer_answers h hl hX hF c len) hi
  | take p c => exact command (fun hX hF => takeAnswer_answers h hX hF c) hi
  | takeAny p => exact command (takeAnyAnswer_answers h) hi
  | peek p c => exact command (fun hX hF => peekAnswer_answers h hX hF c) hi
  | readHeld p c q => exact command (fun hX hF => readHeldAnswer_answers h hX hF c q) hi
  | release p c q => exact quiet (releaseAnswer_quiet p c q s) hi
  | attend p t v a => exact quiet (attendAnswer_quiet p t v a s) hi
  | acceptAttn p => exact quiet (acceptAttnAnswer_quiet p s) hi
  | withdrawAttn p t => exact quiet (withdrawAttnAnswer_quiet p t s) hi
  | propose p q => exact quiet (proposeAnswer_quiet p q s) hi
  | vote p id ch => exact quiet (voteAnswer_quiet p id ch s) hi
  | cancelProposal p id => exact quiet (cancelProposalAnswer_quiet p id s) hi
  | readPartition p => exact quiet (.of_store rfl rfl (.refl s)) hi
  | poolInfo p => exact quiet (.of_store rfl rfl (.refl s)) hi
  | segmentInfo p x => exact quiet (.of_store rfl rfl (.refl s)) hi
  | badCommand p code =>
    simp only [exec, execBadCommand] at hi
    split at hi
    · cases hi; exact h.refuseCode p code
    · cases hi
  | truncated p code args =>
    simp only [exec, execTruncated] at hi
    split at hi
    · split at hi
      · cases hi; exact h.refuseTruncated p code args
      · cases hi
    · cases hi
  | fillCompletion p bytes =>
    simp only [exec, execFillCompletion, Host.Outcome.next.injEq] at hi
    subst hi
    split
    · exact (h.receivePayload p bytes).releaseSelect p
    · exact h
  | transferEnd p => cases hi; exact h.releaseSelect p
  | portResetAsserted p => exact h.portResetAsserted hp hi
  | portResetReleased p => exact h.portResetReleased hi
  | globalResetAsserted => cases hi; exact .globalReset s
  | globalResetReleased =>
    simp only [exec, execGlobalResetReleased, Host.Outcome.next.injEq] at hi
    subst hi
    split
    · exact h.same_controllers ⟨rfl, rfl, rfl⟩ (fun _ => ⟨rfl, rfl⟩)
    · exact h
  | intervalAdvance => cases hi; exact h.advance
  | endOfStartUp =>
    simp only [exec, execEndOfStartUp, Host.Outcome.next.injEq] at hi
    subst hi
    split
    · exact h.endStartUp
    · exact h
  | offerLapse n => cases hi; exact h.takeExpiry (.offer n)
  | proposalLapse => cases hi; exact h.takeExpiry .proposal
  | holdLapse n p q => cases hi; exact h.takeExpiry (.hold n p q)
  | selectAsserted p => exact h.selectAsserted hi

/-- Every step keeps the law of the references. -/
theorem step_refers (hp : PortLaw s) (hl : AccountingLaw s) (h : Refers s) (hs : step s = .next t) : Refers t := by
  obtain ⟨-, rfl⟩ | ⟨i, rest, -, hi⟩ := step_cases hs
  · exact h.referencePeriod
  · have hs : SameStore s { s with pending := rest } := ⟨rfl, rfl, rfl⟩
    exact exec_refers hp.of_pending (hs.books.law hl) (h.same_controllers hs (fun _ => ⟨rfl, rfl⟩)) hi

end Rows

end Sys2Proof.Machine


/-! ### Entries

An endpoint's queue and holds only shrink, but for the head that a TAKE moves and for the segment that a delivery brings.
-/

namespace Sys2Proof.Machine

section Entries

variable {s t : State} {p : Port} {n : ConduitNo} {h : Handle}

/-- The law of one endpoint's entries. -/
def Endpoint.Once (e : Endpoint) : Prop :=
  (e.queue ++ e.holds.map (fun d => d.handle)).Nodup ∧ (e.holds.map (fun d => d.sequence)).Nodup

theorem Endpoint.once_of_empty {e : Endpoint} (hq : e.queue = []) (hh : e.holds = []) : e.Once := by
  simp [Endpoint.Once, hq, hh]

theorem Endpoint.Once.shrink {e e' : Endpoint} (h : e.Once) (hq : List.Sublist e'.queue e.queue)
    (hh : List.Sublist e'.holds e.holds) : e'.Once :=
  ⟨h.1.sublist (hq.append (hh.map _)), h.2.sublist (hh.map _)⟩

theorem EntryLaw.of_shrink (hl : EntryLaw s)
    (hch : ∀ n ch', t.channel n = some ch' → (∃ ch, s.channel n = some ch ∧ MembersShrink ch.members ch'.members) ∨
      ∀ e ∈ ch'.members, e.queue = [] ∧ e.holds = []) : EntryLaw t := by
  intro n ch' hc' e' he'
  obtain ⟨ch, hc, hm⟩ | hempty := hch n ch' hc'
  · obtain ⟨e, he, hq, hh⟩ := hm e' he'
    exact Endpoint.Once.shrink (hl n ch hc e he) hq hh
  · exact Endpoint.once_of_empty (hempty e' he').1 (hempty e' he').2

/-- Slots with the members they had. -/
theorem EntryLaw.of_members (hl : EntryLaw s)
    (hch : ∀ n ch', t.channel n = some ch' → ∃ ch, s.channel n = some ch ∧ ch'.members = ch.members) : EntryLaw t :=
  hl.of_shrink (fun n ch' hc' => by
    obtain ⟨ch, hc, hm⟩ := hch n ch' hc'
    exact .inl ⟨ch, hc, hm ▸ .refl _⟩)

theorem Act.keeps_entries (h : Act s t) (hl : EntryLaw s) : EntryLaw t := by
  have mapped : ∀ {u : State} {f : ConduitNo → Flow → Flow},
      (∀ n, u.channel n = (s.channel n).map (Channel.mapFlow (f n))) → EntryLaw u := fun {u f} hu =>
    hl.of_members (fun n ch' hc' => by
      rw [hu] at hc'
      obtain ⟨ch, hc, rfl⟩ := Option.map_eq_some_iff.1 hc'
      exact ⟨ch, hc, rfl⟩)
  cases h with
  | store h => exact hl.of_members (fun n ch' hc' => ⟨ch', h.channel n ▸ hc', rfl⟩)
  | claim c h => exact mapped (fun n => s.claim_channel h n c)
  | free h => exact mapped (fun n => s.freeDescriptor_channel h n)
  | teardown m =>
    refine hl.of_members (fun n ch' hc' => ?_)
    rw [State.teardown_channel] at hc'
    split at hc'
    · cases hc'
    · exact ⟨ch', hc', rfl⟩
  | use hc hp hs hm =>
    refine hl.of_shrink (fun m ch' hc' => ?_)
    rw [State.setChannel_channel] at hc'
    split at hc'
    · rename_i e; cases hc'; exact .inl ⟨_, e ▸ hc, hm⟩
    · exact .inl ⟨ch', hc', .refl _⟩
  | @offer n ch d g hc hs hq hm =>
    refine hl.of_shrink (fun m ch' hc' => ?_)
    by_cases e : m = n
    · have : ch = ch' := by
        simpa [State.channel, State.conduit, e] using hc'
      exact .inr (this ▸ hm)
    · have : s.channel m = some ch' := by
        have hne : n.val ≠ m.val := fun x => e (Fin.ext x.symm)
        simpa [State.channel, State.conduit, Vector.getElem_set, hne] using hc'
      exact .inl ⟨ch', this, .refl _⟩
  | adopt hp hc hu => exact hl.of_members (fun n ch' hc' => ⟨ch', State.channel_ext hc n ▸ hc', rfl⟩)
  | powerOn hp hc hq => exact hl.of_members (fun n ch' hc' => by rw [channel_of_initial hc] at hc'; cases hc')

/-- A delivered segment was in no queue and no hold. -/
theorem deliver_entries (hl : EntryLaw s) (hr : Refers s) (hF : s.fillHandle? p = some h) {g : Segment} {ch : Channel}
    {f : Flow} (ht : s.deliveryTarget g = some (n, ch, f)) : EntryLaw (s.deliver h g n ch f) := by
  obtain ⟨-, hc, -, -⟩ := State.deliveryTarget_eq_some ht
  have hno := Referred.fill_not_live hr hF
  intro m ch' hc' e' he'
  rw [State.deliver_channel] at hc'
  split at hc'
  · cases hc'
    obtain ⟨e, he, rfl⟩ := List.mem_map.1 he'
    have hq : h ∉ e.queue := hr.not_queued hno hc he
    have hh : h ∉ e.holds.map (fun d => d.handle) := fun hm => by
      obtain ⟨d, hd, hdh⟩ := List.mem_map.1 hm
      exact hr.not_held hno hc he hd hdh
    obtain ⟨h1, h2⟩ := hl n ch hc e he
    refine ⟨?_, h2⟩
    simp only [List.append_assoc, List.singleton_append]
    refine (List.perm_middle.nodup_iff).2 (List.nodup_cons.2 ⟨?_, h1⟩)
    rw [List.mem_append]
    exact fun hm => hm.elim hq hh
  · exact hl m ch' hc' e' he'

/-- A head goes to the holds with a sequence that no other hold carries. -/
theorem Endpoint.Once.moved {e : Endpoint} {rest : List Handle} {d : Hold} (h : e.Once)
    (hq : e.queue = d.handle :: rest) (hd : ∀ x ∈ e.holds, x.sequence = d.sequence → x.handle = d.handle) :
    (e.moved d).Once := by
  obtain ⟨h1, h2⟩ := h
  rw [hq, List.cons_append, List.nodup_cons, List.mem_append] at h1
  obtain ⟨hnew, h1⟩ := h1
  simp only [Endpoint.Once, Endpoint.moved, hq, List.tail_cons, List.map_append, List.map_cons, List.map_nil]
  constructor
  · rw [← List.append_assoc]
    exact h1.append (List.nodup_singleton _) (List.disjoint_singleton.2 (fun hm => hnew (List.mem_append.1 hm)))
  · refine h2.append (List.nodup_singleton _) (List.disjoint_singleton.2 (fun hm => ?_))
    obtain ⟨x, hx, hxs⟩ := List.mem_map.1 hm
    exact hnew (.inr (List.mem_map.2 ⟨x, hx, hd x hx hxs⟩))

theorem takeHead_entries (hl : EntryLaw s) (hw : WindowLaw s) {T : Handle → Nat} {F : Port → Option Handle}
    (hr : Referred T F s) {ch : Channel} {e : Endpoint} {rest : List Handle} (hc : s.channel n = some ch)
    (he : ch.endpoint? p = some e) (hq : e.queue = h :: rest) : EntryLaw (s.takeHead p n ch h) := by
  obtain ⟨hm, rfl⟩ := Channel.endpoint?_some he
  have hnd := hr.sound.tidy.distinct n ch hc
  obtain ⟨g, q, hg, hst, hcon⟩ := hr.queued_live hc hm (h := h) (by rw [hq]; exact List.mem_cons_self)
  let d : Hold := { sequence := s.sequenceOf h, handle := h, deadline := s.holdDeadline ch.holdLimit }
  have hapart : ∀ x ∈ e.holds, x.sequence = d.sequence → x.handle = d.handle := fun x hx hxs => by
    obtain ⟨g', hg', hst', hcon'⟩ := hr.held_live hc hm hx
    rw [hxs, show d.sequence = q from State.sequenceOf_live hg hst] at hst'
    exact hw.sequencesApart n _ _ g' g q _ _ hg' hg hcon' hcon hst' hst
  have moved : EntryLaw (s.setChannel n (some (ch.updateEndpoint e.port (Endpoint.moved d)))) := by
    intro m c' hc' x' hx'
    rw [State.setChannel_channel] at hc'
    split at hc'
    · cases hc'
      obtain ⟨x, hx, rfl⟩ := List.mem_map.1 hx'
      split
      · rename_i hp
        obtain rfl : x = e := List.inj_on_of_nodup_map hnd hx hm hp
        exact Endpoint.Once.moved (hl n ch hc x hx) hq hapart
      · exact hl n ch hc x hx
    · exact hl m c' hc' x' hx'
  unfold State.takeHead State.updateEndpoint
  rw [s.updateChannel_of_some n hc]
  exact (State.drainCheck_acts _ n).keeps (fun _ _ hl ha => ha.keeps_entries hl)
    ((Act.claim _ .take h).keeps_entries moved)

theorem Done.keeps_entries (hd : Done s t) (hr : Refers s) (hw : WindowLaw s) (hl : EntryLaw s) : EntryLaw t := by
  have stored : ∀ {u : State}, SameStore u t → EntryLaw u → EntryLaw t := fun hs hu => (Act.store hs).keeps_entries hu
  obtain hacts | ⟨p, n, ch, f, h, rest, len, -, hc, -, -, -, -, -, -, hs⟩ |
    ⟨p, h, g, n, ch, f, hfill, hg, ht, hs⟩ | ⟨p, n, ch, e, h, rest, hc, -, he, hq, hs⟩ := hd
  · exact hacts.keeps (fun _ _ hl ha => ha.keeps_entries hl) hl
  · refine stored hs (hl.of_members (fun m ch' hc' => ?_))
    rw [State.startFill_channel] at hc'
    split at hc'
    · rename_i e
      obtain ⟨c, hcn, rfl⟩ := Option.map_eq_some_iff.1 hc'
      exact ⟨c, e ▸ hcn, rfl⟩
    · exact ⟨ch', hc', rfl⟩
  · exact stored hs (deliver_entries hl hr hfill ht)
  · exact stored hs (takeHead_entries hl hw hr hc he hq)

theorem Received.keeps_entries (hr : Received s t) (hl : EntryLaw s) : EntryLaw t := by
  obtain rfl | ⟨p, bytes, rfl⟩ := hr
  · exact hl
  · exact hl.of_members (fun n ch' hc' => ⟨ch', s.receivePayload_channel p bytes n ▸ hc', rfl⟩)

theorem Received.refers (hr : Received s t) (h : Refers s) : Refers t := by
  obtain rfl | ⟨p, bytes, rfl⟩ := hr
  · exact h
  · exact h.receivePayload p bytes

end Entries

end Sys2Proof.Machine

open Sys2Proof Sys2Proof.Machine in
/-- Settles O14: the counts hold of any transfers and fills in flight that a row's operations leave, and the port
controllers name those in flight after it; the entries follow from the counts and the windows. -/
theorem everyStepKeepsTheReferenceLaw : Obligations.EveryStepKeepsTheReferenceLaw := by
  refine ⟨fun s t hp ha hc hr hstep => (step_refers hp ha (hr.refers hc) hstep).law, fun s t _ hc hw hr hl hstep => ?_⟩
  obtain ⟨-, rfl⟩ | ⟨i, rest, -, hi⟩ := step_cases hstep
  · exact s.referencePeriod_acts.keeps (fun _ _ hl ha => ha.keeps_entries hl) hl
  · obtain ⟨s1, hrec, hd⟩ := exec_done hi
    have hs : SameStore s { s with pending := rest } := ⟨rfl, rfl, rfl⟩
    have hrefers : Refers { s with pending := rest } := (hr.refers hc).same_controllers hs (fun _ => ⟨rfl, rfl⟩)
    exact hd.keeps_entries (hrec.refers hrefers) (hrec.keeps_windows (hw.of_store hs.pool hs.conduits))
      (hrec.keeps_entries ((Act.store hs).keeps_entries hl))


/-! ### Contents

What a descriptor holds stays until it is freed: only an allocation and a delivery make a descriptor what it was not,
and only a fill in flight takes in payload bytes. -/

namespace Sys2Proof.Machine

section Contents

variable {s t u : State} {p : Port} {n : ConduitNo} {h k : Handle} {g g' : Segment}

/-- A descriptor with the producer, length, payload, role and sequence it had, and its conduit or none. -/
structure SameContents (g g' : Segment) : Prop where
  producer : g'.producer = g.producer
  length : g'.length = g.length
  payload : g'.payload = g.payload
  conduit : g'.conduit = g.conduit ∨ g'.conduit = none
  filling : g'.stage = .filling ↔ g.stage = .filling
  live : ∀ q, (∃ r, g'.stage = .live q r) ↔ ∃ r, g.stage = .live q r

theorem SameContents.refl (g : Segment) : SameContents g g := ⟨rfl, rfl, rfl, .inl rfl, .rfl, fun _ => .rfl⟩

theorem SameContents.trans {g'' : Segment} (a : SameContents g g') (b : SameContents g' g'') : SameContents g g'' where
  producer := b.producer.trans a.producer
  length := b.length.trans a.length
  payload := b.payload.trans a.payload
  conduit := b.conduit.elim (fun e => e ▸ a.conduit) .inr
  filling := b.filling.trans a.filling
  live q := (b.live q).trans (a.live q)

/-- Every descriptor that is not FREE after was there before, with the same contents. -/
def Lasts (s t : State) : Prop := ∀ h g', t.segment h = some g' → ∃ g, s.segment h = some g ∧ SameContents g g'

theorem Lasts.of_segments (h : ∀ k, t.segment k = s.segment k) : Lasts s t :=
  fun k g hg => ⟨g, h k ▸ hg, .refl g⟩

theorem Lasts.refl (s : State) : Lasts s s := .of_segments (fun _ => rfl)

theorem Lasts.trans (a : Lasts s t) (b : Lasts t u) : Lasts s u := fun k g'' hg'' => by
  obtain ⟨g', hg', hb⟩ := b k g'' hg''
  obtain ⟨g, hg, ha⟩ := a k g' hg'
  exact ⟨g, hg, ha.trans hb⟩

theorem SameStore.lasts (h : SameStore s t) : Lasts s t := .of_segments h.segment

theorem Segment.claimed_contents {c : Claim} (h : g.claimed c = some g') : SameContents g g' := by
  unfold Segment.claimed at h
  split at h
  · cases h; exact .refl g
  · rename_i q r hst
    split at h <;> cases h
    exact ⟨rfl, rfl, rfl, .inl rfl, by simp [hst], fun q' => by simp [hst]⟩

theorem Segment.detachFrom_contents (g : Segment) (n : ConduitNo) : SameContents g (g.detachFrom n) := by
  refine ⟨by simp, by simp, by simp, ?_, by simp, by simp⟩
  by_cases hc : g.conduit = some n
  · exact .inr (by rw [Segment.detachFrom_of_eq hc])
  · exact .inl (by rw [Segment.detachFrom_of_ne hc])

theorem Act.lasts (h : Act s t) : Lasts s t := by
  cases h with
  | store h => exact h.lasts
  | claim c h =>
    intro k g' hg'
    rw [State.claim_segment] at hg'
    split at hg'
    · rename_i e
      obtain ⟨g, hg, hcl⟩ := Option.bind_eq_some_iff.1 hg'
      exact ⟨g, e ▸ hg, Segment.claimed_contents hcl⟩
    · exact ⟨g', hg', .refl g'⟩
  | free h =>
    intro k g' hg'
    rw [State.freeDescriptor_segment] at hg'
    split at hg'
    · cases hg'
    · exact ⟨g', hg', .refl g'⟩
  | teardown m =>
    intro k g' hg'
    rw [State.teardown_segment] at hg'
    obtain ⟨g, hg, rfl⟩ := Option.map_eq_some_iff.1 hg'
    exact ⟨g, hg, g.detachFrom_contents m⟩
  | use => exact .of_segments (fun _ => rfl)
  | offer => exact .of_segments (fun _ => rfl)
  | adopt hp => exact .of_segments (fun k => State.segment_ext (by rw [hp]) k)
  | powerOn hp => intro k g' hg'; rw [segment_of_initial hp] at hg'; cases hg'

theorem Acts.lasts (h : Acts s t) : Lasts s t :=
  h.keeps (P := Lasts s) (fun _ _ hl ha => hl.trans ha.lasts) (.refl s)

theorem takeHead_lasts {ch : Channel} (hc : s.channel n = some ch) : Lasts s (s.takeHead p n ch h) := by
  have moved : ∀ f, Lasts s (s.updateEndpoint n p f) := fun f => by
    rw [State.updateEndpoint, s.updateChannel_of_some n hc]
    exact .of_segments (fun _ => rfl)
  exact ((moved _).trans (Act.claim _ .take h).lasts).trans (State.drainCheck_acts _ n).lasts

/-- What a row does once it has taken in its payload bytes leaves a LIVE descriptor its contents, or frees it. -/
theorem Done.lasts_live (hd : Done s t) (ha : AccountingLaw s) (hk : FillsKnown s) {q : Half} {r : Refs}
    (hg : s.segment h = some g) (hst : g.stage = .live q r) (hg' : t.segment h = some g') : SameContents g g' := by
  have of_lasts : Lasts s t → SameContents g g' := fun hl => by
    obtain ⟨y, hy, hc⟩ := hl h g' hg'
    rw [hg] at hy
    cases hy
    exact hc
  obtain hacts | ⟨p, n, ch, f, k, rest, len, -, -, -, -, -, -, -, hf, hs⟩ |
    ⟨p, k, y, n, ch, f, hfill, hy, -, hs⟩ | ⟨p, n, ch, e, k, rest, hc, -, -, -, hs⟩ := hd
  · exact of_lasts hacts.lasts
  · have hfree : s.segment k = none := (ha.freeListed k).1 (by simp [hf])
    have hne : h ≠ k := fun e => by rw [e, hfree] at hg; cases hg
    rw [hs.segment, State.startFill_segment, if_neg hne, hg] at hg'
    cases hg'
    exact .refl g
  · have hne : h ≠ k := fun e => by
      have := hk.filling p k y hfill hy
      rw [e, hy] at hg
      cases hg
      rw [this] at hst
      cases hst
    rw [hs.segment, State.deliver_segment, if_neg hne, hg] at hg'
    cases hg'
    exact .refl g
  · exact of_lasts ((takeHead_lasts hc).trans hs.lasts)

/-- Payload bytes leave a LIVE descriptor as it is. -/
theorem Received.segment_live (hr : Received s t) (hk : FillsKnown s) {q : Half} {r : Refs} (hg : s.segment h = some g)
    (hst : g.stage = .live q r) : t.segment h = some g := by
  obtain rfl | ⟨p, bytes, rfl⟩ := hr
  · exact hg
  · rw [State.receivePayload_segment, if_neg (fun hf => ?_), hg]
    have := hk.filling p h g hf hg
    rw [hst] at this
    cases this

/-! #### Fills in flight -/

/-- Every fill in flight after was one before, with the same transaction. -/
def FillsFrom (s t : State) : Prop := ∀ q h, t.fillHandle? q = some h →
  s.fillHandle? q = some h ∧ (t.port q).transaction = (s.port q).transaction

theorem FillsFrom.of_ports (h : t.ports = s.ports) : FillsFrom s t := fun q k hk => by
  have := State.port_congr h q
  exact ⟨State.fillHandle?_congr this ▸ hk, by rw [this]⟩

/-- Only one port changed, and it has no fill. -/
theorem FillsFrom.of_elsewhere (h : ∀ q, q ≠ p → t.port q = s.port q) (hp : t.fillHandle? p = none) : FillsFrom s t :=
  fun q k hk => by
    have hq : q ≠ p := fun e => by rw [e, hp] at hk; cases hk
    exact ⟨State.fillHandle?_congr (h q hq) ▸ hk, by rw [h q hq]⟩

theorem FillsFrom.of_controllers
    (h : ∀ q, (t.port q).transaction = (s.port q).transaction ∧ (t.port q).outcome = (s.port q).outcome) :
    FillsFrom s t := fun q k hk => by
  refine ⟨?_, (h q).1⟩
  simp only [State.fillHandle?, h q] at hk
  exact hk

theorem PayloadLaw.lasts (hl : PayloadLaw s) (hs : Lasts s t) (hf : FillsFrom s t) : PayloadLaw t where
  live k g' q r hg' hst' := by
    obtain ⟨g, hg, hc⟩ := hs k g' hg'
    obtain ⟨r0, hst⟩ := (hc.live q).1 ⟨r, hst'⟩
    rw [hc.payload, hc.length]
    exact hl.live k g q r0 hg hst
  filling q k g' x hk hg' hx := by
    obtain ⟨g, hg, hc⟩ := hs k g' hg'
    obtain ⟨hk0, hx0⟩ := hf q k hk
    rw [hc.payload, hc.length]
    exact hl.filling q k g x hk0 hg (hx0 ▸ hx)

theorem ReferenceLaw.fillsAre (hr : ReferenceLaw s) : FillsAre s s.fillHandle? := ⟨hr.filling, hr.filled⟩

/-- A fill takes in bytes up to its length. -/
theorem PayloadLaw.receivePayload (hl : PayloadLaw s) (hF : FillsAre s s.fillHandle?) (p : Port) (bytes : List Byte) :
    PayloadLaw (s.receivePayload p bytes) ∧
      FillsAre (s.receivePayload p bytes) (s.receivePayload p bytes).fillHandle? := by
  have hfills := fun q => (s.receivePayload_handles p bytes q).1
  refine ⟨?_, fun k g' hg' hst' => ?_, fun q k hk => ?_⟩
  · cases hf : s.fillHandle? p with
    | none => rw [State.receivePayload_of_no_fill bytes hf]; exact hl
    | some h =>
      obtain ⟨x, hx, -, -⟩ := State.transaction_of_fill hf
      obtain ⟨y, hy, hsty, hpy⟩ := hF.filled p h hf
      have hseg : ∀ k, (s.receivePayload p bytes).segment k =
          if k = h then some (y.stored bytes) else s.segment k := fun k => by
        rw [State.receivePayload_segment, hf]
        by_cases e : k = h
        · rw [if_pos (by rw [e]), if_pos e, e, hy]; rfl
        · rw [if_neg (fun e' => e (Option.some.inj e').symm), if_neg e]
      have hport : ∀ q, (s.receivePayload p bytes).port q = if q = p then
          { s.port p with transaction := some { x with byteCount := x.byteCount + bytes.length } } else s.port q :=
        fun q => by
          rw [State.receivePayload_of_fill bytes hf hx, State.setSegment_port, State.setPort_port]
      constructor
      · intro k g' q r hg' hst'
        rw [hseg] at hg'
        split at hg'
        · cases hg'
          have : y.stage = .live q r := hst'
          rw [hsty] at this
          cases this
        · exact hl.live k g' q r hg' hst'
      · intro q k g' x' hk hg' hx'
        rw [hfills] at hk
        rw [hport] at hx'
        split at hx'
        · rename_i e
          rw [e, hf, Option.some.injEq] at hk
          cases hx'
          rw [hseg, if_pos hk.symm] at hg'
          cases hg'
          obtain ⟨h4, hlen⟩ := hl.filling p h y x hf hy hx
          have hcount : (Command.post.replyPosition : Nat) = 4 := rfl
          simp only [Transaction.payloadCount, hcount] at hlen ⊢
          simp only [Segment.stored, List.length_take, List.length_append, hlen]
          omega
        · rename_i e
          have hkh : k ≠ h := fun ek => by
            obtain ⟨z, hz, -, hpz⟩ := hF.filled q k hk
            rw [ek, hy] at hz
            cases hz
            exact e (hpz.symm.trans hpy)
          rw [hseg, if_neg hkh] at hg'
          exact hl.filling q k g' x' hk hg' hx'
  · obtain ⟨g, hg, -, hp, hst⟩ := State.receivePayload_segment_some hg'
    rw [hfills, hp]
    exact hF.filling k g hg (hst ▸ hst')
  · rw [hfills] at hk
    obtain ⟨g, hg, hst, hp⟩ := hF.filled q k hk
    rw [State.receivePayload_segment, hg]
    split
    · exact ⟨_, rfl, hst, hp⟩
    · exact ⟨g, rfl, hst, hp⟩

/-- A fill with enough bytes is delivered with as many payload bytes as its length. -/
theorem PayloadLaw.deliver (hl : PayloadLaw s) (hF : FillsAre s s.fillHandle?) (hf : s.fillHandle? p = some h)
    (hg : s.segment h = some g) {x : Transaction} (hx : (s.port p).transaction = some x)
    (hcount : ¬ x.payloadCount < g.length) {ch : Channel} {f : Flow} (ht : SameStore (s.deliver h g n ch f) t)
    (hfrom : FillsFrom s t) (hp : t.fillHandle? p = none) : PayloadLaw t := by
  obtain ⟨y, hy, -, hpy⟩ := hF.filled p h hf
  rw [hg] at hy
  cases hy
  have hseg : ∀ k, k ≠ h → t.segment k = s.segment k := fun k hk => by
    rw [ht.segment, State.deliver_segment, if_neg hk]
  constructor
  · intro k g' q r hg' hst'
    by_cases hk : k = h
    · rw [hk, ht.segment, State.deliver_segment, if_pos rfl] at hg'
      cases hg'
      have := (hl.filling p h g x hf hg hx).2
      simp only
      omega
    · exact hl.live k g' q r (hseg k hk ▸ hg') hst'
  · intro q k g' x' hk hg' hx'
    obtain ⟨hk0, hx0⟩ := hfrom q k hk
    have hkh : k ≠ h := fun e => by
      obtain ⟨z, hz, -, hpz⟩ := hF.filled q k hk0
      rw [e, hg] at hz
      cases hz
      rw [hpz.symm.trans hpy, hp] at hk
      cases hk
    exact hl.filling q k g' x' hk0 (hseg k hkh ▸ hg') (hx0 ▸ hx')

/-- A POST begins its fill with no payload byte received. -/
theorem PayloadLaw.startFill (hl : PayloadLaw s) (hfree : s.segment h = none) {length : Nat}
    (ht : SameStore (s.startFill h p n length) t)
    (hfills : ∀ q k, t.fillHandle? q = some k → q ≠ p →
      s.fillHandle? q = some k ∧ (t.port q).transaction = (s.port q).transaction)
    (hp : t.fillHandle? p = some h) (hfill : FillsAre s s.fillHandle?)
    (hx : ∀ x, (t.port p).transaction = some x → x.byteCount = 4) : PayloadLaw t := by
  have hseg : ∀ k, t.segment k = if k = h then
      some { producer := p, conduit := some n, length, payload := [], stage := .filling } else s.segment k := fun k => by
    rw [ht.segment, State.startFill_segment]
  constructor
  · intro k g' q r hg' hst'
    rw [hseg] at hg'
    split at hg'
    · cases hg'; cases hst'
    · exact hl.live k g' q r hg' hst'
  · intro q k g' x hk hg' hxq
    by_cases hq : q = p
    · subst hq
      rw [hp, Option.some.injEq] at hk
      rw [hseg, if_pos hk.symm] at hg'
      cases hg'
      have := hx x hxq
      have hcount : (Command.post.replyPosition : Nat) = 4 := rfl
      simp only [Transaction.payloadCount, hcount, this, List.length_nil]
      omega
    · obtain ⟨hk0, hx0⟩ := hfills q k hk hq
      have hkh : k ≠ h := fun e => by
        obtain ⟨z, hz, -, -⟩ := hfill.filled q k hk0
        rw [e, hfree] at hz
        cases hz
      rw [hseg, if_neg hkh] at hg'
      exact hl.filling q k g' x hk0 hg' (hx0 ▸ hxq)

end Contents

end Sys2Proof.Machine


/-! ### Contents: rows -/

namespace Sys2Proof.Machine

section Rows

variable {s t : State} {p : Port} {n : ConduitNo} {h : Handle}

theorem PayloadLaw.acts (hl : PayloadLaw s) (ha : Acts s t) (hf : FillsFrom s t) : PayloadLaw t := hl.lasts ha.lasts hf

theorem PayloadLaw.same_controllers (hl : PayloadLaw s) (hs : SameStore s t)
    (hq : ∀ q, (t.port q).transaction = (s.port q).transaction ∧ (t.port q).outcome = (s.port q).outcome) :
    PayloadLaw t := hl.lasts hs.lasts (.of_controllers hq)

/-! #### Commands -/

/-- An answer that leaves every descriptor its contents, and every other port's controller as it is. -/
structure Lasting (s : State) (p : Port) (a : Answer) : Prop where
  contents : Lasts s a.state
  elsewhere : ∀ q, q ≠ p → a.state.port q = s.port q

theorem Lasting.refuse (s : State) (p : Port) (o : OutcomeCode) : Lasting s p (refuse s o) :=
  ⟨.refl s, fun _ _ => rfl⟩

theorem Quiet.lasting {a : Answer} (hq : Quiet s a) (ha : Acts s a.state) : Lasting s p a :=
  ⟨ha.lasts, fun q _ => State.port_congr hq.ports q⟩

theorem Lasting.takeHead {ch : Channel} (hc : s.channel n = some ch) {o : OutcomeCode} {c : Option ConduitNo}
    {k : Option Handle} {x : List Byte} :
    Lasting s p { state := s.takeHead p n ch h, outcome := o, conduit := c, handle := k, fields := x } :=
  ⟨takeHead_lasts hc, fun q _ => State.port_congr (s.takeHead_surroundings p n ch h).ports q⟩

theorem Lasting.claim (c : Claim) {o : OutcomeCode} {k : Option Handle} {x : List Byte} :
    Lasting s p { state := s.claim c h, outcome := o, handle := k, fields := x } :=
  ⟨(Act.claim s c h).lasts, fun q _ => State.port_congr (s.claim_surroundings c h).ports q⟩

theorem takeAnswer_lasting (p : Port) (b : Byte) (s : State) : Lasting s p (takeAnswer p b s) :=
  State.asMember_elim (fun o _ => .refuse s p o) (fun n ch e _ hc _ _ => by
    split
    · exact .refuse s p _
    · split
      · exact .refuse s p _
      · exact .takeHead hc)

theorem takeAnyAnswer_lasting (p : Port) (s : State) : Lasting s p (takeAnyAnswer p s) := by
  unfold takeAnyAnswer
  split
  · split <;> exact .refuse s p _
  · split
    · exact .refuse s p _
    · rename_i hw
      obtain ⟨hc, -⟩ := State.waiting?_some hw
      refine ⟨(takeHead_lasts hc).trans (State.setPort_store _ p _).lasts, fun q hq => ?_⟩
      rw [State.setPort_port_ne _ _ hq]
      exact State.port_congr (State.takeHead_surroundings _ p _ _ _).ports q

theorem peekAnswer_lasting (p : Port) (b : Byte) (s : State) : Lasting s p (peekAnswer p b s) :=
  State.asMember_elim (fun o _ => .refuse s p o) (fun n ch e _ _ _ _ => by
    split
    · exact .refuse s p _
    · exact .claim _)

theorem readHeldAnswer_lasting (p : Port) (b : Byte) (q : Half) (s : State) : Lasting s p (readHeldAnswer p b q s) :=
  State.asMember_elim (fun o _ => .refuse s p o) (fun n ch e _ _ _ _ => by
    split
    · exact .refuse s p _
    · exact .claim _)

theorem State.attach_lasting (s : State) (p : Port) : Lasting s p { state := s.attach p, outcome := .done } :=
  ⟨(s.attach_store p).lasts, fun q hq => by rw [State.port, s.attach_ports p, PerPort.get_set, if_neg hq]; rfl⟩

theorem State.depart_port_ne (s : State) {q : Port} (hq : q ≠ p) (cause : DepartureCause) (left : PortState) :
    (s.depart p cause left).port q = s.port q := by
  rw [State.port, s.depart_ports p, PerPort.get_set, if_neg hq]
  rfl

theorem State.depart_lasting (s : State) (p : Port) :
    Lasting s p { state := s.depart p .detach .detached, outcome := .done } :=
  ⟨(s.depart_acts p _ _).lasts, fun _ hq => s.depart_port_ne hq _ _⟩

/-- An acceptance other than an accepted POST's leaves its port without a fill. -/
theorem State.accept_no_fill {c : Command} {named : Option ConduitNo} {x : Transaction} {a : Answer}
    (h : ¬ (c = .post ∧ a.outcome = .done)) : (State.accept p c named x a).fillHandle? p = none := by
  obtain ⟨-, y, hy, hph, -⟩ := State.accept_port_self p c named x a
  exact State.no_fill_of_phase hy (by rw [hph, if_neg h]; simp)

theorem PayloadLaw.accept (hl : PayloadLaw s) {c : Command} {named : Option ConduitNo} {x : Transaction} {a : Answer}
    (ha : Lasting s p a) (hc : ¬ (c = .post ∧ a.outcome = .done)) :
    PayloadLaw (State.accept p c named x a) :=
  hl.lasts (ha.contents.trans (State.accept_store p c named x a).lasts)
    (.of_elsewhere (fun q hq => (State.accept_port_ne hq).trans (ha.elsewhere q hq)) (State.accept_no_fill hc))

theorem PayloadLaw.transact (hl : PayloadLaw s) (hF : FillsAre s s.fillHandle?) (c : Command) (args : List Byte)
    (named : Option ConduitNo) (owner : State → Answer)
    (ho : s.fillHandle? p = none → ∀ x, PayloadLaw (State.accept p c named x (owner s))) :
    PayloadLaw (s.transact p c args named owner) := by
  unfold State.transact
  split
  · rename_i shown x _ hx
    have frame : x.phase ≠ .payload → PayloadLaw
        (if x.phase.continuedBy c.code args then
          match admission c shown with
          | some refusal => State.accept p c named x (refuse s refusal)
          | none => State.accept p c named x (owner s)
        else s) := fun hph => by
      split
      · split
        · rename_i refusal hadm
          refine hl.accept (.refuse s p _) (fun e => ?_)
          have : refusal ≠ .done := by
            intro e'
            subst e'
            cases shown <;> cases c <;> cases hadm
          exact this e.2
        · exact ho (State.no_fill_of_phase hx hph) x
      · exact hl
    split
    · exact hl
    · exact (hl.receivePayload hF p _).1
    · rename_i hph; exact frame (by simp [hph])
    · rename_i hph; exact frame (by simp [hph])
  · exact hl

theorem PayloadLaw.post (hl : PayloadLaw s) (hF : FillsAre s s.fillHandle?) (ha : AccountingLaw s) (b : Byte)
    (length : Half) (named : Option ConduitNo) (x : Transaction) :
    PayloadLaw (State.accept p .post named x (postAnswer p b length s)) := by
  obtain ⟨hq, ho, hseg⟩ | ⟨n, k, rest, hk, he⟩ := postAnswer_answered p b length s
  · exact hl.accept ⟨.of_segments hseg, fun q _ => State.port_congr hq.ports q⟩ (fun e => ho e.2)
  · have hfree : s.segment k = none := (ha.freeListed k).1 (by rw [hk]; exact List.mem_cons_self)
    have hstate : (postAnswer p b length s).state = s.startFill k p n length.toNat := by rw [he]
    have other : ∀ q, q ≠ p → (State.accept p .post named x (postAnswer p b length s)).port q = s.port q := fun q hq => by
      rw [State.accept_port_ne hq, hstate]
      exact State.port_congr (State.updateChannel_surroundings _ n _).ports q
    refine hl.startFill hfree (hstate ▸ State.accept_store p .post named x (postAnswer p b length s)) (fun q j hj hq => ?_)
      (State.accept_post (by rw [he]) (by rw [he])).2 hF (fun y hy => ?_)
    · exact ⟨State.fillHandle?_congr (other q hq) ▸ hj, by rw [other q hq]⟩
    · obtain ⟨-, z, hz, -, hcount⟩ := State.accept_port_self p .post named x (postAnswer p b length s)
      rw [hz] at hy
      cases hy
      exact hcount

/-! #### The end of a transaction -/

theorem State.endTransfer_port_ne (s : State) {q : Port} (hq : q ≠ p) : (s.endTransfer p).port q = s.port q := by
  unfold State.endTransfer
  split
  · rfl
  · rw [State.setPort_port_ne _ _ hq]
    exact State.port_congr (s.claim_surroundings _ _).ports q

theorem State.endTransaction_port_ne (s : State) {q : Port} (hq : q ≠ p) : (s.endTransaction p).port q = s.port q :=
  State.setPort_port_ne _ _ hq

theorem State.completeFill_port_ne (s : State) (count : Nat) {q : Port} (hq : q ≠ p) :
    (s.completeFill p h count).port q = s.port q := by
  unfold State.completeFill
  split
  · rfl
  · split
    · rw [State.setOutcome, State.setPort_port_ne _ _ hq]
      exact State.port_congr (s.freeDescriptor_surroundings h).ports q
    · split
      · rw [State.setOutcome, State.setPort_port_ne _ _ hq]
        exact State.port_congr (s.freeDescriptor_surroundings h).ports q
      · rw [State.setOutcome, State.setPort_port_ne _ _ hq]
        exact State.port_congr (s.deliver_surroundings h _ _ _ _).ports q

theorem State.releaseSelect_port_ne (s : State) {q : Port} (hq : q ≠ p) : (s.releaseSelect p).port q = s.port q := by
  unfold State.releaseSelect
  split
  · rfl
  · split
    · exact s.endTransaction_port_ne hq
    · exact State.setPort_port_ne _ _ hq
    · rw [State.endTransaction_port_ne _ hq, s.endTransfer_port_ne hq]
    · split
      · exact s.endTransaction_port_ne hq
      · rw [State.endTransaction_port_ne _ hq, s.completeFill_port_ne _ hq]

theorem State.abort_port_ne (s : State) {q : Port} (hq : q ≠ p) : (s.abort p).port q = s.port q := by
  unfold State.abort
  split
  · rw [State.endTransaction_port_ne _ hq]
    exact State.port_congr (s.freeDescriptor_surroundings _).ports q
  · rw [State.endTransaction_port_ne _ hq, s.endTransfer_port_ne hq]

theorem State.releaseSelect_fills (s : State) (p : Port) : FillsFrom s (s.releaseSelect p) :=
  .of_elsewhere (fun _ hq => s.releaseSelect_port_ne hq) (State.fillHandle?_silent (s.releaseSelect_silent p))

/-- A released select leaves every descriptor its contents, but for a fill with enough bytes that it delivers. -/
theorem State.releaseSelect_contents (s : State) (p : Port) : Lasts s (s.releaseSelect p) ∨
    ∃ h g n ch f x, s.fillHandle? p = some h ∧ s.segment h = some g ∧ (s.port p).transaction = some x ∧
      ¬ x.payloadCount < g.length ∧ SameStore (s.deliver h g n ch f) (s.releaseSelect p) := by
  unfold State.releaseSelect
  split
  · exact .inl (.refl s)
  · rename_i x hx
    split
    · exact .inl (s.setPort_store p _).lasts
    · exact .inl (s.setPort_store p _).lasts
    · exact .inl ((s.endTransfer_acts p).lasts.trans (State.setPort_store _ p _).lasts)
    · split
      · exact .inl (s.setPort_store p _).lasts
      · rename_i h hf
        unfold State.completeFill
        have freed : ∀ o, Lasts s (((s.freeDescriptor h).setOutcome p o).endTransaction p) := fun o =>
          (Act.free s h).lasts.trans ((State.setPort_store _ p _).trans (State.setPort_store _ p _)).lasts
        split
        · exact .inl (s.setPort_store p _).lasts
        · rename_i g hg
          split
          · exact .inl (freed _)
          · rename_i hcount
            split
            · exact .inl (freed _)
            · rename_i n ch f _
              exact .inr ⟨h, g, n, ch, f, x, hf, hg, hx, hcount,
                (State.setPort_store _ p _).trans (State.setPort_store _ p _)⟩

theorem PayloadLaw.releaseSelect (hl : PayloadLaw s) (hF : FillsAre s s.fillHandle?) (p : Port) :
    PayloadLaw (s.releaseSelect p) := by
  obtain hs | ⟨h, g, n, ch, f, x, hf, hg, hx, hcount, hd⟩ := s.releaseSelect_contents p
  · exact hl.lasts hs (s.releaseSelect_fills p)
  · exact hl.deliver hF hf hg hx hcount hd (s.releaseSelect_fills p)
      (State.fillHandle?_silent (s.releaseSelect_silent p))

/-! #### Rows -/

theorem PayloadLaw.refuseCode (hl : PayloadLaw s) (hF : FillsAre s s.fillHandle?) (p : Port) (code : Byte) :
    PayloadLaw (s.refuseCode p code) := by
  unfold State.refuseCode
  split
  · split
    · exact hl
    · exact hl
    · exact (hl.receivePayload hF p _).1
    · exact hl.lasts (s.setPort_store p _).lasts
        (.of_elsewhere (fun _ hq => State.setPort_port_ne _ _ hq) (by simp [State.fillHandle?]))
  · exact hl

/-- The end of a port's transaction, whatever else of its controller changes. -/
theorem PayloadLaw.silenced (hl : PayloadLaw s) (ha : Acts s t) (hports : ∀ q, q ≠ p → t.port q = s.port q)
    (hx : (t.port p).transaction = none) : PayloadLaw t :=
  hl.acts ha (.of_elsewhere hports (State.fillHandle?_silent hx))

theorem PayloadLaw.refuseTruncated (hl : PayloadLaw s) (p : Port) (code : Byte) (args : List Byte) :
    PayloadLaw (s.refuseTruncated p code args) := by
  unfold State.refuseTruncated
  split
  · split
    · exact hl.silenced (s.setPort_store p _).acts (fun _ hq => State.setPort_port_ne _ _ hq)
        (by rw [State.endTruncated, State.setPort_port_self])
    · exact hl
  · exact hl

/-- An asserted reset line ends the port's transaction and changes no other port controller. -/
theorem execPortResetAsserted_controllers (hp : PortLaw s) (ht : execPortResetAsserted p s = .next t) :
    (∀ q, q ≠ p → t.port q = s.port q) ∧ (t.port p).transaction = none := by
  have silent := s.abort_silent p
  unfold execPortResetAsserted at ht
  simp only [Host.Outcome.next.injEq] at ht
  subst ht
  split
  · refine ⟨fun q hq => ?_, ?_⟩
    · rw [State.setResetLine, State.setPort_port_ne _ _ hq, State.depart_port_ne _ hq, s.abort_port_ne hq]
    · rw [State.setResetLine, State.setPort_port_self]
      simp only
      rw [State.port, State.depart_ports, PerPort.get_set, if_pos rfl]
      exact silent
  · refine ⟨fun q hq => ?_, ?_⟩
    · rw [State.setResetLine, State.setPort_port_ne _ _ hq, State.enterHeld, State.setPort_port_ne _ _ hq,
        s.abort_port_ne hq]
    · rw [State.setResetLine, State.setPort_port_self, State.enterHeld, State.setPort_port_self]
      exact silent
  · split
    · refine ⟨fun q hq => ?_, ?_⟩
      · rw [State.setResetLine, State.setPort_port_ne _ _ hq, State.resetOutcome, State.setPort_port_ne _ _ hq,
          State.endTransaction_port_ne _ hq]
      · rw [State.setResetLine, State.setPort_port_self, State.resetOutcome, State.setPort_port_self,
          State.endTransaction, State.setPort_port_self]
    · rename_i hs
      refine ⟨fun q hq => State.setPort_port_ne _ _ hq, ?_⟩
      rw [State.setResetLine, State.setPort_port_self]
      exact hp.silentWhileIgnored p hs

theorem PayloadLaw.portResetAsserted (hl : PayloadLaw s) (hp : PortLaw s) (ht : execPortResetAsserted p s = .next t) :
    PayloadLaw t := by
  obtain ⟨hports, hx⟩ := execPortResetAsserted_controllers hp ht
  exact hl.silenced (execPortResetAsserted_acts ht) hports hx

theorem PayloadLaw.setPort_same (hl : PayloadLaw s) {c : PortController} (ht : c.transaction = (s.port p).transaction)
    (ho : c.outcome = (s.port p).outcome) : PayloadLaw (s.setPort p c) :=
  hl.same_controllers (s.setPort_store p c) (fun q => by
    rw [State.setPort_port]
    split
    · rename_i e; rw [e]; exact ⟨ht, ho⟩
    · exact ⟨rfl, rfl⟩)

theorem PayloadLaw.portResetReleased (hl : PayloadLaw s) (ht : execPortResetReleased p s = .next t) : PayloadLaw t := by
  unfold execPortResetReleased at ht
  simp only [Host.Outcome.next.injEq] at ht
  subst ht
  split
  · split
    · have freed : PayloadLaw (s.setPort p { s.port p with state := .detached }) := hl.setPort_same rfl rfl
      exact freed.setPort_same rfl rfl
    · exact hl.setPort_same rfl rfl
    · exact hl.setPort_same rfl rfl
  · exact hl

theorem PayloadLaw.selectAsserted (hl : PayloadLaw s) (hF : FillsAre s s.fillHandle?)
    (ht : execSelectAsserted p s = .next t) : PayloadLaw t := by
  unfold execSelectAsserted at ht
  simp only [Host.Outcome.next.injEq] at ht
  subst ht
  split
  · exact hl
  · exact (hl.releaseSelect hF p).lasts (State.setPort_store _ p _).lasts
      (.of_elsewhere (fun _ hq => State.setPort_port_ne _ _ hq) (by simp [State.fillHandle?]))

theorem PayloadLaw.takeExpiry (hl : PayloadLaw s) (e : Expiry) : PayloadLaw (s.takeExpiry e) :=
  hl.acts (s.takeExpiry_acts e) (.of_ports (s.takeExpiry_ports e))

theorem PayloadLaw.endStartUp (hl : PayloadLaw s) : PayloadLaw s.endStartUp :=
  hl.same_controllers ⟨rfl, rfl, rfl⟩ s.endStartUp_controllers

theorem PayloadLaw.countAdvance (hl : PayloadLaw s) : PayloadLaw s.countAdvance := by
  unfold State.countAdvance
  split
  · exact hl
  · exact hl.endStartUp
  · exact hl.same_controllers ⟨rfl, rfl, rfl⟩ (fun _ => ⟨rfl, rfl⟩)

theorem PayloadLaw.advance (hl : PayloadLaw s) : PayloadLaw s.advance :=
  State.advance_keeps s (P := PayloadLaw) (fun _ e h => h.takeExpiry e)
    (fun _ _ h => h.same_controllers ⟨rfl, rfl, rfl⟩ (fun _ => ⟨rfl, rfl⟩)) (fun _ h => h.countAdvance) hl

theorem PayloadLaw.referencePeriod (hl : PayloadLaw s) : PayloadLaw s.referencePeriod :=
  State.referencePeriod_keeps s (P := PayloadLaw) (fun _ e h => h.takeExpiry e)
    (fun _ _ h => h.same_controllers ⟨rfl, rfl, rfl⟩ (fun _ => ⟨rfl, rfl⟩)) (fun _ h => h.countAdvance)
    (fun _ _ h => h.same_controllers ⟨rfl, rfl, rfl⟩ (fun _ => ⟨rfl, rfl⟩)) hl

/-- Every row keeps the law of the payload. -/
theorem exec_payload {i : Instr} (hp : PortLaw s) (ha : AccountingLaw s) (hF : FillsAre s s.fillHandle?)
    (hl : PayloadLaw s) (hi : exec i s = .next t) : PayloadLaw t := by
  have command : ∀ {p c args named} {owner : State → Answer}, c ≠ .post → Lasting s p (owner s) →
      Host.Outcome.next (s.transact p c args named owner) = (.next t : Host.Outcome State Fault Refusal) →
      PayloadLaw t := by
    intro p c args named owner hc ho he
    cases he
    exact hl.transact hF c args named owner (fun _ x => hl.accept ho (fun e => hc e.1))
  have idle : ∀ p x, Lasting s p { state := s, outcome := .done, fields := x } := fun p x => ⟨.refl s, fun _ _ => rfl⟩
  cases i with
  | status p => exact command (by simp) (idle p _) hi
  | attach p => exact command (by simp) (s.attach_lasting p) hi
  | detach p => exact command (by simp) (s.depart_lasting p) hi
  | nextEvent p => exact command (by simp) ((nextEventAnswer_quiet p s).lasting (nextEventAnswer_acts p s)) hi
  | offer p ms cl w sz hl =>
    exact command (by simp) ((offerAnswer_quiet p ms cl w sz hl s).lasting (offerAnswer_acts p s ms cl w sz hl)) hi
  | answer p c g ch wl sl =>
    exact command (by simp) ((answerAnswer_quiet p c g ch wl sl s).lasting (answerAnswer_acts p s c g ch wl sl)) hi
  | close p c => exact command (by simp) ((closeAnswer_quiet p c s).lasting (closeAnswer_acts p s c)) hi
  | leave p c => exact command (by simp) ((leaveAnswer_quiet p c s).lasting (leaveAnswer_acts p s c)) hi
  | flush p c => exact command (by simp) ((flushAnswer_quiet p c s).lasting (flushAnswer_acts p s c)) hi
  | conduitInfo p c => exact command (by simp) ((conduitInfoAnswer_quiet c s).lasting (conduitInfoAnswer_acts s c)) hi
  | post p c len =>
    cases hi
    exact hl.transact hF _ _ _ _ (fun _ x => hl.post hF ha c len _ x)
  | take p c => exact command (by simp) (takeAnswer_lasting p c s) hi
  | takeAny p => exact command (by simp) (takeAnyAnswer_lasting p s) hi
  | peek p c => exact command (by simp) (peekAnswer_lasting p c s) hi
  | readHeld p c q => exact command (by simp) (readHeldAnswer_lasting p c q s) hi
  | release p c q => exact command (by simp) ((releaseAnswer_quiet p c q s).lasting (releaseAnswer_acts p s c q)) hi
  | attend p t v a => exact command (by simp) ((attendAnswer_quiet p t v a s).lasting (attendAnswer_acts p s t v a)) hi
  | acceptAttn p => exact command (by simp) ((acceptAttnAnswer_quiet p s).lasting (acceptAttnAnswer_acts p s)) hi
  | withdrawAttn p t =>
    exact command (by simp) ((withdrawAttnAnswer_quiet p t s).lasting (withdrawAttnAnswer_acts p s t)) hi
  | propose p q => exact command (by simp) ((proposeAnswer_quiet p q s).lasting (proposeAnswer_acts p s q)) hi
  | vote p id ch => exact command (by simp) ((voteAnswer_quiet p id ch s).lasting (voteAnswer_acts p s id ch)) hi
  | cancelProposal p id =>
    exact command (by simp) ((cancelProposalAnswer_quiet p id s).lasting (cancelProposalAnswer_acts p s id)) hi
  | readPartition p => exact command (by simp) (idle p _) hi
  | poolInfo p => exact command (by simp) (idle p _) hi
  | segmentInfo p x => exact command (by simp) (idle p _) hi
  | badCommand p code =>
    simp only [exec, execBadCommand] at hi
    split at hi
    · cases hi; exact hl.refuseCode hF p code
    · cases hi
  | truncated p code args =>
    simp only [exec, execTruncated] at hi
    split at hi
    · split at hi
      · cases hi; exact hl.refuseTruncated p code args
      · cases hi
    · cases hi
  | fillCompletion p bytes =>
    simp only [exec, execFillCompletion, Host.Outcome.next.injEq] at hi
    subst hi
    split
    · obtain ⟨hl', hF'⟩ := hl.receivePayload hF p bytes
      exact hl'.releaseSelect hF' p
    · exact hl
  | transferEnd p => cases hi; exact hl.releaseSelect hF p
  | portResetAsserted p => exact hl.portResetAsserted hp hi
  | portResetReleased p => exact hl.portResetReleased hi
  | globalResetAsserted =>
    cases hi
    refine hl.acts (Act.powerOn rfl rfl rfl).acts (fun q k hk => ?_)
    rw [s.globalReset_idle q |>.1] at hk
    cases hk
  | globalResetReleased =>
    simp only [exec, execGlobalResetReleased, Host.Outcome.next.injEq] at hi
    subst hi
    split
    · exact hl.same_controllers ⟨rfl, rfl, rfl⟩ (fun _ => ⟨rfl, rfl⟩)
    · exact hl
  | intervalAdvance => cases hi; exact hl.advance
  | endOfStartUp =>
    simp only [exec, execEndOfStartUp, Host.Outcome.next.injEq] at hi
    subst hi
    split
    · exact hl.endStartUp
    · exact hl
  | offerLapse n => cases hi; exact hl.takeExpiry (.offer n)
  | proposalLapse => cases hi; exact hl.takeExpiry .proposal
  | holdLapse n p q => cases hi; exact hl.takeExpiry (.hold n p q)
  | selectAsserted p => exact hl.selectAsserted hF hi

end Rows

end Sys2Proof.Machine

open Sys2Proof Sys2Proof.Machine in
/-- Settles O21: acts and reads keep a descriptor's contents or free it; a POST takes a FREE descriptor, a delivery a
FILLING one, and only a fill takes in bytes. -/
theorem liveSegmentsKeepTheirContents : Obligations.LiveSegmentsKeepTheirContents := by
  refine ⟨fun i s t h g q r ha hr hi hg hst => ?_, fun s t hp ha hr hl hstep => ?_⟩
  · obtain ⟨s1, hrec, hd⟩ := exec_done hi
    have hg1 := hrec.segment_live hr.fillsKnown hg hst
    cases ht : t.segment h with
    | none => exact .inl rfl
    | some g' =>
      have hc := hd.lasts_live (hrec.keeps_accounts ha) (hrec.fillsKnown hr.fillsKnown) hg1 hst ht
      obtain ⟨r', hst'⟩ := (hc.live q).2 ⟨r, hst⟩
      exact .inr ⟨g', r', rfl, hst', hc.producer, hc.length, hc.payload, hc.conduit⟩
  · obtain ⟨-, rfl⟩ | ⟨i, rest, -, hi⟩ := step_cases hstep
    · exact hl.referencePeriod
    · have hs : SameStore s { s with pending := rest } := ⟨rfl, rfl, rfl⟩
      exact exec_payload (hp.of_pending) (hs.books.law ha) hr.of_pending.fillsAre
        (hl.same_controllers hs (fun _ => ⟨rfl, rfl⟩)) hi


/-! ### References taken away from one conduit

A run of claims on descriptors that name one conduit is one change of the pool and one batch of freeing notices. -/

namespace Sys2Proof.Machine

section Losses

variable {s t : State} {p : Port} {n m : ConduitNo} {h k : Handle} {g : Segment}

/-! #### Descriptors that lose references -/

/-- A descriptor that is not LIVE without a reference (R12). -/
def Segment.Referenced (g : Segment) : Prop := ∀ q r, g.stage = .live q r → 1 ≤ r.total

theorem Segment.less_zero (hg : g.Referenced) : g.less 0 0 = some g := by
  unfold Segment.less
  split
  · rfl
  · rename_i q r hst
    have := hg q r hst
    simp only [Refs.total] at this
    rw [if_neg (by omega)]
    show some { g with stage := SegmentStage.live q r } = some g
    rw [← hst]

theorem Segment.less_referenced {i j : Nat} {g' : Segment} (h : g.less i j = some g') (hg : g.Referenced) :
    g'.Referenced := by
  unfold Segment.less at h
  split at h
  · cases h; exact hg
  · split at h
    · cases h
    · rename_i q r _ ht
      cases h
      intro q' r' hst'
      simp only [SegmentStage.live.injEq] at hst'
      rw [← hst'.2]
      simp only [Refs.total]
      omega

/-- References lost in two turns are lost one turn behind the other. -/
theorem Segment.less_less (g : Segment) (i j i' j' : Nat) :
    (g.less i j).bind (fun g' => g'.less i' j') = g.less (i + i') (j + j') := by
  unfold Segment.less
  cases hst : g.stage with
  | filling => simp [hst]
  | live q r =>
    simp only
    by_cases h1 : r.queue - i + (r.hold - j) + r.transfer = 0
    · rw [if_pos h1, if_pos (by omega), Option.bind_none]
    · rw [if_neg h1, Option.bind_some]
      simp only [Nat.sub_sub]

theorem Segment.detachedFrom_none (g : Segment) : g.detachedFrom (fun _ => false) = g := by
  simp [Segment.detachedFrom]

theorem Segment.detachedFrom_of_not {ended : ConduitNo → Bool} (h : ∀ n, g.conduit = some n → ended n = false) :
    g.detachedFrom ended = g := by
  unfold Segment.detachedFrom
  rw [if_neg]
  cases hc : g.conduit with
  | none => simp
  | some n => simp [h n hc]

theorem Segment.detachFrom_eq (g : Segment) (n : ConduitNo) : g.detachFrom n = g.detachedFrom (fun m => m == n) := by
  unfold Segment.detachFrom Segment.detachedFrom
  cases g.conduit <;> simp

theorem Segment.detachedFrom_detachedFrom (g : Segment) (a b : ConduitNo → Bool) :
    (g.detachedFrom a).detachedFrom b = g.detachedFrom (fun n => a n || b n) := by
  unfold Segment.detachedFrom
  cases hc : g.conduit with
  | none => simp [hc]
  | some n => cases ha : a n <;> cases hb : b n <;> simp [ha, hb, hc]

theorem Segment.detachedFrom_less (g : Segment) (ended : ConduitNo → Bool) (i j : Nat) :
    (g.detachedFrom ended).less i j = (g.less i j).map (fun g => g.detachedFrom ended) := by
  unfold Segment.detachedFrom Segment.less
  cases hst : g.stage with
  | filling => cases hc : g.conduit.any ended <;> simp [hst, hc]
  | live q r =>
    cases hc : g.conduit.any ended <;> simp only [Bool.false_eq_true, if_false, if_true, hst] <;> split <;> simp [hc]

/-! #### Pools -/

/-- A pool after its descriptors have lost these references, with what is freed behind the free-descriptor list. -/
structure Pool.Lost (a b : Pool) (queue hold : Handle → Nat) : Prop where
  descriptors : ∀ h : Handle, b.descriptors[h] = a.descriptors[h].bind (fun g => g.less (queue h) (hold h))
  freedBehind : a.freeList <+: b.freeList

/-- A pool without a LIVE descriptor that nothing refers to. -/
def Pool.Referenced (a : Pool) : Prop := ∀ (h : Handle) (g : Segment), a.descriptors[h] = some g → g.Referenced

theorem Pool.Lost.refl {a : Pool} (ha : a.Referenced) : a.Lost a (fun _ => 0) (fun _ => 0) where
  descriptors h := by
    cases hd : a.descriptors[h] with
    | none => rfl
    | some g => rw [Option.bind_some, Segment.less_zero (ha h g hd)]
  freedBehind := List.prefix_rfl

theorem Pool.Lost.trans {a b c : Pool} {i j i' j' : Handle → Nat} (x : a.Lost b i j) (y : b.Lost c i' j') :
    a.Lost c (fun h => i h + i' h) (fun h => j h + j' h) where
  descriptors h := by
    rw [y.descriptors, x.descriptors]
    cases a.descriptors[h] with
    | none => rfl
    | some g => exact g.less_less _ _ _ _
  freedBehind := x.freedBehind.trans y.freedBehind

theorem Pool.Lost.congr {a b : Pool} {i j i' j' : Handle → Nat} (x : a.Lost b i j) (hi : ∀ h, i' h = i h)
    (hj : ∀ h, j' h = j h) : a.Lost b i' j' := by
  obtain rfl : i' = i := funext hi
  obtain rfl : j' = j := funext hj
  exact x

theorem Pool.Lost.referenced {a b : Pool} {i j : Handle → Nat} (x : a.Lost b i j) (ha : a.Referenced) :
    b.Referenced := fun h g hg => by
  rw [x.descriptors] at hg
  obtain ⟨g0, hg0, hl⟩ := Option.bind_eq_some_iff.1 hg
  exact Segment.less_referenced hl (ha h g0 hg0)

/-- The descriptors that are not FREE. -/
def Pool.occupied (a : Pool) : Nat := total (indicator Option.isSome) a.descriptors

/-- One descriptor of a pool replaced by what is left of it. -/
theorem Pool.Lost.one {a b : Pool} (ha : a.Referenced) {i j : Nat}
    (hb : ∀ k : Handle, k ≠ h → b.descriptors[k] = a.descriptors[k])
    (hh : b.descriptors[h] = a.descriptors[h].bind (fun g => g.less i j)) (hf : a.freeList <+: b.freeList) :
    a.Lost b (fun k => if k = h then i else 0) (fun k => if k = h then j else 0) := by
  refine ⟨fun k => ?_, hf⟩
  by_cases hk : k = h
  · subst hk; simpa using hh
  · rw [hb k hk, if_neg hk, if_neg hk]
    cases hd : a.descriptors[k] with
    | none => rfl
    | some g => rw [Option.bind_some, Segment.less_zero (ha k g hd)]

theorem Pool.occupied_set {a b : Pool} {x : Option Segment} (hg : a.descriptors[h] = some g)
    (hb : b.descriptors = a.descriptors.set h x) : b.occupied + 1 = a.occupied + indicator Option.isSome x := by
  have := total_set (indicator Option.isSome) a.descriptors h.val h.isLt x
  rw [show a.descriptors[h.val] = some g from hg] at this
  unfold Pool.occupied
  rw [hb]
  exact this

/-- A claim that takes references away from a descriptor of a conduit: its loss, and the notice of its freeing. -/
theorem State.claim_lost (ha : s.pool.Referenced) (c : Claim) (i j : Nat)
    (hc : ∀ g : Segment, g.claimed c = g.less i j) (hn : ∀ g, s.segment h = some g → g.conduit = some n) :
    ∃ P k, s.claim c h = ({ s with pool := P } : State).noticed n k ∧
      s.pool.Lost P (fun k => if k = h then i else 0) (fun k => if k = h then j else 0) ∧
      s.pool.occupied = P.occupied + k := by
  rw [State.claim_eq]
  cases hg : s.segment h with
  | none =>
    have hd : s.pool.descriptors[h] = none := hg
    exact ⟨s.pool, 0, by rw [Pool.claimed_of_none h hd, State.noticed_zero]; rfl,
      .one ha (fun _ _ => rfl) (by rw [hd]; rfl) List.prefix_rfl, rfl⟩
  | some g =>
    have hd : s.pool.descriptors[h] = some g := hg
    have hother : ∀ (x : Option Segment) (k : Handle), k ≠ h → (s.pool.descriptors.set h x)[k] = s.pool.descriptors[k] :=
      fun x k hk => (getElem_set_handle h k _ x).trans (if_neg hk)
    have hself : ∀ x : Option Segment, (s.pool.descriptors.set h x)[h] = x :=
      fun x => (getElem_set_handle h h _ x).trans (if_pos rfl)
    rw [Option.bind_some, Segment.noticeOf]
    cases hcg : g.claimed c with
    | none =>
      rw [Pool.claimed_of_freed h hd hcg]
      refine ⟨s.pool.reclaim h g, 1, by rw [if_pos rfl, hn g hg]; rfl,
        .one ha (hother none) (by rw [hd, Option.bind_some, ← hc, hcg]; exact hself none) (List.prefix_append _ _), ?_⟩
      exact (Pool.occupied_set (x := none) hd rfl).symm
    | some g' =>
      rw [Pool.claimed_of_kept h hd hcg]
      refine ⟨{ s.pool with descriptors := s.pool.descriptors.set h (some g') }, 0,
        by rw [if_neg (by simp), State.noticed_zero]; rfl,
        .one ha (hother _) (by rw [hd, Option.bind_some, ← hc, hcg]; exact hself _) List.prefix_rfl, ?_⟩
      have := Pool.occupied_set (b := { s.pool with descriptors := s.pool.descriptors.set h (some g') }) hd rfl
      simp only [indicator, Option.isSome_some, if_true] at this
      exact (Nat.succ.inj this).symm

theorem State.noticed_withPool (s : State) (P : Pool) (k : Nat) :
    ({ s.noticed n k with pool := P } : State) = ({ s with pool := P } : State).noticed n k := by
  cases hfl : s.flowOf n with
  | none =>
    have hno : ∀ ch, s.channel n = some ch → ch.stage.flow? = none := fun ch hc => by
      simpa [State.flowOf, hc] using hfl
    rw [s.noticed_of_flowless n hno, State.noticed_of_flowless { s with pool := P } n hno]
  | some f =>
    obtain ⟨ch, hc, hf⟩ := Option.bind_eq_some_iff.1 hfl
    rw [s.noticed_of_flow n hc hf, State.noticed_of_flow { s with pool := P } n hc hf]
    rfl

/-- A run of such claims. -/
theorem State.claims_lost (c : Claim) (i j : Nat) (hc : ∀ g : Segment, g.claimed c = g.less i j) (hs : List Handle) :
    ∀ s : State, s.pool.Referenced → (∀ h ∈ hs, ∀ g, s.segment h = some g → g.conduit = some n) →
    ∃ P k, s.claims c hs = ({ s with pool := P } : State).noticed n k ∧
      s.pool.Lost P (fun h => i * hs.count h) (fun h => j * hs.count h) ∧ s.pool.occupied = P.occupied + k := by
  induction hs with
  | nil =>
    intro s ha _
    exact ⟨s.pool, 0, (State.noticed_zero s n).symm, by simpa using Pool.Lost.refl ha, rfl⟩
  | cons h hs ih =>
    intro s ha hn
    obtain ⟨P, k, he, hl, ho⟩ := s.claim_lost ha c i j hc (hn h List.mem_cons_self)
    have hP : (({ s with pool := P } : State).noticed n k).pool = P := State.noticed_pool _ _ _
    have hn' : ∀ x ∈ hs, ∀ g, (({ s with pool := P } : State).noticed n k).segment x = some g → g.conduit = some n := by
      intro x hx g hg
      rw [← he, State.claim_segment] at hg
      split at hg
      · rename_i e
        obtain ⟨g0, hg0, hcl⟩ := Option.bind_eq_some_iff.1 hg
        rw [(Segment.claimed_role hcl).1]
        exact hn x (List.mem_cons_of_mem _ hx) g0 (e ▸ hg0)
      · exact hn x (List.mem_cons_of_mem _ hx) g hg
    obtain ⟨P', k', he', hl', ho'⟩ := ih _ (by rw [hP]; exact hl.referenced ha) hn'
    rw [hP] at hl' ho'
    refine ⟨P', k + k', ?_, ?_, by omega⟩
    · show (s.claim c h).claims c hs = _
      rw [he, he', State.noticed_withPool, State.noticed_noticed]
    · have hcount : ∀ (i : Nat) (x : Handle), i * (h :: hs).count x = (if x = h then i else 0) + i * hs.count x :=
        fun i x => by
          by_cases hx : x = h
          · rw [hx, List.count_cons_self, if_pos rfl, Nat.mul_succ, Nat.add_comm]
          · rw [List.count_cons_of_ne (fun e => hx e.symm), if_neg hx, Nat.zero_add]
      exact (hl.trans hl').congr (hcount i) (hcount j)

/-! #### One slot changed -/

/-- One slot's use and the pool replaced, and these records told. -/
def State.slotTo (s : State) (n : ConduitNo) (use : Option Channel) (pool : Pool) (records : Port → List Event) : State :=
  ({ s with pool, conduits := s.withUse n use } : State).tell records

@[simp] theorem State.slotTo_channel_self (use : Option Channel) (P : Pool) (R : Port → List Event) :
    (s.slotTo n use P R).channel n = use := by
  rw [State.slotTo, State.tell_channel]
  exact State.setChannel_channel_self _ _ _

theorem State.slotTo_conduit (use : Option Channel) (P : Pool) (R : Port → List Event) (m : ConduitNo) :
    (s.slotTo n use P R).conduit m =
      if m = n then { generation := (s.conduit n).generation, channel := use } else s.conduit m := by
  rw [State.slotTo, State.tell_conduit]
  simp only [State.withUse, State.conduit, Fin.getElem_fin, Vector.getElem_set, Fin.ext_iff, eq_comm]

theorem State.slotTo_segment (use : Option Channel) (P : Pool) (R : Port → List Event) (h : Handle) :
    (s.slotTo n use P R).segment h = P.descriptors[h] := rfl

theorem State.slotTo_surroundings (use : Option Channel) (P : Pool) (R : Port → List Event) :
    SameSurroundings s (s.slotTo n use P R) := ⟨rfl, rfl, rfl, rfl, rfl, rfl⟩

/-- The slot changed once more. -/
theorem State.slotTo_slotTo (use use' : Option Channel) (P P' : Pool) (R R' : Port → List Event) :
    (s.slotTo n use P R).slotTo n use' P' R' = s.slotTo n use' P' (fun q => R q ++ R' q) := by
  have hw : (s.slotTo n use P R).withUse n use' = s.withUse n use' := by
    have hg := congrArg Conduit.generation (s.slotTo_conduit (n := n) use P R n)
    rw [if_pos rfl] at hg
    rw [State.withUse, hg]
    simp [State.slotTo, State.withUse]
  rw [State.slotTo, hw]
  exact State.tell_tell ({ s with pool := P', conduits := s.withUse n use' } : State) R R'

/-- What a port that is not ATTACHED is told makes no difference. -/
theorem State.tell_congr {f g : Port → List Event} (h : ∀ q, s.Attached q → f q = g q) : s.tell f = s.tell g := by
  have : s.heard f = s.heard g := by
    apply PerPort.ext_get
    intro q
    rw [State.heard_get, State.heard_get]
    unfold State.hears
    split
    · rename_i ha; rw [h q ha]
    · rfl
  rw [State.tell, this, State.tell]

/-- An offer that fails. -/
theorem State.failOffer_slotTo (r : OfferResult) {ps : List Port} (h : ps.Nodup) : s.failOffer n r ps =
    s.slotTo n none (s.pool.detach n) (fun q =>
      if q ∈ ps then [.offerResolved n (s.conduit n).generation r] else []) := s.failOffer_eq n r h

/-- The records of a conduit's end (R41, R44). -/
def State.endRecords (s : State) (n : ConduitNo) (ch : Channel) (r : EndReason) (q : Port) : List Event :=
  if (q = ch.producer ∧ ch.producerPresent = true) ∨ q ∈ ch.memberPorts then
    [.conduitEnded n (s.conduit n).generation r] else []

theorem State.endConduit_slotTo {ch : Channel} {P : Pool} {R : Port → List Event} (r : EndReason)
    (hp : ch.producer ∉ ch.memberPorts) (hn : ch.memberPorts.Nodup) :
    (s.slotTo n (some ch) P R).endConduit n r =
      s.slotTo n none (P.detach n) (fun q => R q ++ s.endRecords n ch r q) := by
  rw [State.endConduit_eq _ n r (s.slotTo_channel_self (some ch) P R) hp hn]
  refine Eq.trans ?_ (s.slotTo_slotTo (n := n) (some ch) none P (P.detach n) R (s.endRecords n ch r))
  have hg := congrArg Conduit.generation (s.slotTo_conduit (n := n) (some ch) P R n)
  rw [if_pos rfl] at hg
  rw [hg]
  rfl

theorem State.drainCheck_slotTo_draining {ch : Channel} {f : Flow} {P : Pool} {R : Port → List Event}
    (hst : ch.stage = .draining f) (hp : ch.producer ∉ ch.memberPorts) (hn : ch.memberPorts.Nodup) :
    (s.slotTo n (some ch) P R).drainCheck n =
      if ch.drained then s.slotTo n none (P.detach n) (fun q => R q ++ s.endRecords n ch .drained q)
      else s.slotTo n (some ch) P R := by
  unfold State.drainCheck
  rw [State.slotTo_channel_self]
  simp only [hst]
  split
  · exact State.endConduit_slotTo .drained hp hn
  · rfl

theorem State.drainCheck_slotTo_opened {ch : Channel} {f : Flow} {P : Pool} {R : Port → List Event}
    (hst : ch.stage = .opened f) : (s.slotTo n (some ch) P R).drainCheck n = s.slotTo n (some ch) P R := by
  unfold State.drainCheck
  rw [State.slotTo_channel_self]
  simp only [hst]

/-! #### Freed descriptors counted -/

/-- The sum over a table, by its indices in ascending order. -/
theorem total_range {α : Type} {k : Nat} [NeZero k] (w : α → Nat) (v : Vector α k) :
    total w v = (((List.range k).map (Fin.ofNat k)).map (fun i => w v[i])).sum := by
  unfold total
  congr 1
  apply List.ext_getElem
  · simp
  · intro i h1 h2
    have hi : i < k := by simpa using h1
    have hl : i < ((List.range k).map (Fin.ofNat k)).length := by simpa using hi
    have hval : (((List.range k).map (Fin.ofNat k))[i]'hl).val = i := by
      simp [Nat.mod_eq_of_lt hi]
    simp only [List.getElem_map, Vector.getElem_toList, Fin.getElem_fin]
    simp only [List.getElem_map, List.getElem_range] at hval
    simp only [hval, List.getElem_range]

theorem total_handles (w : Option Segment → Nat) (v : Vector (Option Segment) 256) :
    total w v = (allHandles.map (fun h => w v[h])).sum := total_range w v

/-- What is lost and was not FREE counts the freeings. -/
theorem Pool.Lost.freedBy {P : Pool} {i j : Handle → Nat} {k : Nat} (x : s.pool.Lost P i j)
    (ho : s.pool.occupied = P.occupied + k) : s.freedBy i j = k := by
  have hfreed : s.freedBy i j = (allHandles.map (fun h =>
      if (s.segment h).any (fun g => (g.less (i h) (j h)).isNone) then 1 else 0)).sum := by
    unfold State.freedBy
    induction allHandles with
    | nil => rfl
    | cons a l ih =>
      rw [List.countP_cons, List.map_cons, List.sum_cons, ih]
      omega
  have hsum : s.pool.occupied = P.occupied + s.freedBy i j := by
    unfold Pool.occupied
    rw [total_handles, total_handles, hfreed, ← List.sum_map_add]
    congr 1
    refine List.map_congr_left (fun h _ => ?_)
    rw [x.descriptors h]
    have hseg : s.segment h = s.pool.descriptors[h] := rfl
    rw [hseg]
    cases s.pool.descriptors[h] with
    | none => rfl
    | some g => cases hl : g.less (i h) (j h) <;> simp [indicator, hl]
  omega

/-! #### A member removed -/

theorem Segment.less_conduit {i j : Nat} {g' : Segment} (h : g.less i j = some g') : g'.conduit = g.conduit := by
  unfold Segment.less at h
  split at h
  · cases h; rfl
  · split at h
    · cases h
    · cases h; rfl

theorem Segment.claimed_removeQueued (g : Segment) : g.claimed .removeQueued = g.less 1 0 := by
  unfold Segment.claimed Segment.less
  cases hst : g.stage <;> simp [Claim.change, Refs.total]

theorem Segment.claimed_removeHeld (g : Segment) : g.claimed .removeHeld = g.less 0 1 := by
  unfold Segment.claimed Segment.less
  cases hst : g.stage <;> simp [Claim.change, Refs.total]

/-- A slot with one member taken off the list of members. -/
def Channel.without (ch : Channel) (p : Port) : Channel := { ch with members := ch.members.filter (fun x => x.port != p) }

theorem Channel.mem_without_ports {ch : Channel} {q : Port} :
    q ∈ (ch.without p).memberPorts ↔ q ∈ ch.memberPorts ∧ q ≠ p := by
  simp only [Channel.without, Channel.memberPorts, List.mem_map, List.mem_filter, bne_iff_ne, ne_eq]
  constructor
  · rintro ⟨x, ⟨hx, hne⟩, rfl⟩; exact ⟨⟨x, hx, rfl⟩, hne⟩
  · rintro ⟨⟨x, hx, rfl⟩, hne⟩; exact ⟨x, ⟨hx, hne⟩, rfl⟩

/-- The claims of a removal: the endpoint's queue and holds lost, and the notices of what they free. -/
theorem State.removal_claims {ch : Channel} {f : Flow} {e : Endpoint} {R : Port → List Event} (ha : s.pool.Referenced)
    (hf : ch.stage.flow? = some f) (hq : ∀ h ∈ e.queue, ∀ g, s.segment h = some g → g.conduit = some n)
    (hh : ∀ d ∈ e.holds, ∀ g, s.segment d.handle = some g → g.conduit = some n) :
    ∃ P, s.pool.Lost P (fun h => e.queue.count h) e.holdsOf ∧
      ((s.slotTo n (some ch) s.pool R).claims .removeQueued e.queue).claims .removeHeld
          (e.holds.map (fun d => d.handle)) =
        s.slotTo n (some (ch.mapFlow (fun f => f.afterFreeing (s.freedWith e)))) P
          (fun q => R q ++ if q = ch.producer ∧ f.reopens (s.freedWith e) = true then [.windowOpen n] else []) := by
  obtain ⟨P, i, he, hl, ho⟩ := State.claims_lost (n := n) .removeQueued 1 0 Segment.claimed_removeQueued e.queue
    (s.slotTo n (some ch) s.pool R) ha hq
  have hP : (({ s.slotTo n (some ch) s.pool R with pool := P } : State).noticed n i).pool = P := State.noticed_pool _ _ _
  obtain ⟨P', i', he', hl', ho'⟩ := State.claims_lost (n := n) .removeHeld 0 1 Segment.claimed_removeHeld
    (e.holds.map (fun d => d.handle)) _ (by rw [hP]; exact hl.referenced ha) (fun h hm g hg => by
      obtain ⟨d, hd, rfl⟩ := List.mem_map.1 hm
      have hg' : P.descriptors[d.handle] = some g := by
        rw [State.segment, hP] at hg
        exact hg
      rw [hl.descriptors] at hg'
      obtain ⟨g0, hg0, hless⟩ := Option.bind_eq_some_iff.1 hg'
      rw [Segment.less_conduit hless]
      exact hh d hd g0 hg0)
  rw [hP] at hl' ho'
  have hlost : s.pool.Lost P' (fun h => e.queue.count h) e.holdsOf :=
    (hl.trans hl').congr (fun h => by simp) (fun h => by
      simp only [Endpoint.holdsOf, List.count, List.countP_map, Nat.zero_mul, Nat.one_mul, Nat.zero_add]
      rfl)
  have hk : s.freedWith e = i + i' := hlost.freedBy (by
    have : s.pool.occupied = P.occupied + i := ho
    omega)
  refine ⟨P', hlost, ?_⟩
  rw [he, he', State.noticed_withPool, State.noticed_noticed, ← hk]
  have hc : ({ s.slotTo n (some ch) s.pool R with pool := P' } : State).channel n = some ch := s.slotTo_channel_self _ _ _
  rw [State.noticed_of_flow _ n hc hf]
  have hm : ch.mapFlow (fun _ => f.afterFreeing (s.freedWith e)) =
      ch.mapFlow (fun f => f.afterFreeing (s.freedWith e)) :=
    Channel.mapFlow_congr (fun x hx => by rw [hf] at hx; cases hx; rfl)
  rw [hm]
  exact s.slotTo_slotTo (n := n) (some ch) _ P' P' R _

end Losses

end Sys2Proof.Machine


/-! ### What a departure leaves of one slot -/

namespace Sys2Proof.Machine

section Slot

variable {s t : State} {T : Handle → Nat} {F : Port → Option Handle} {p : Port} {n m : ConduitNo} {h : Handle}

theorem Referred.referenced (hr : Referred T F s) : s.pool.Referenced := fun h g hg q r hst => by
  obtain ⟨he, h1⟩ := hr.counted.live h g q r hg hst
  rw [he]
  exact h1

/-- What a port's endpoint in a slot counts in a weight: nothing where the port has none there. -/
def State.drawn (s : State) (p : Port) (w : Endpoint → Nat) (n : ConduitNo) : Nat :=
  slotSum (fun e => if e.port = p then w e else 0) (s.channel n)

theorem State.drawn_of_none {w : Endpoint → Nat} (hc : s.channel n = none) : s.drawn p w n = 0 := by
  rw [State.drawn, hc]; rfl

theorem State.drawn_of_not_member {w : Endpoint → Nat} {ch : Channel} (hc : s.channel n = some ch)
    (hp : p ∉ ch.memberPorts) : s.drawn p w n = 0 := by
  rw [State.drawn, hc]
  exact slotSum_eq_zero (fun e he => if_neg (fun hep => hp (List.mem_map.2 ⟨e, he, hep⟩)))

theorem State.drawn_of_weightless {w : Endpoint → Nat} {ch : Channel} (hc : s.channel n = some ch)
    (hw : ∀ e ∈ ch.members, w e = 0) : s.drawn p w n = 0 := by
  rw [State.drawn, hc]
  exact slotSum_eq_zero (fun e he => by split <;> simp [hw e he])

theorem State.drawn_of_member {w : Endpoint → Nat} {ch : Channel} {e : Endpoint} (hc : s.channel n = some ch)
    (hn : ch.memberPorts.Nodup) (he : e ∈ ch.members) : s.drawn e.port w n = w e := by
  rw [State.drawn, hc]
  have h1 := slotSum_removeEndpoint (w := fun x => if x.port = e.port then w x else 0) hn he
  have h2 : slotSum (fun x => if x.port = e.port then w x else 0)
      (some { ch with members := ch.members.filter (fun x => x.port != e.port) }) = 0 :=
    slotSum_eq_zero (fun x hx => if_neg (by simpa using (List.mem_filter.1 hx).2))
  simp only [if_true] at h1
  omega

/-- The pool after a port's endpoint in a slot has lost its entries, and the slot has ended or not. -/
structure PoolDeparted (s : State) (p : Port) (n : ConduitNo) (ended : Bool) (P : Pool) : Prop where
  descriptors : ∀ h : Handle, P.descriptors[h] =
    ((s.segment h).bind (fun g => g.less (s.drawn p (queueWeight h) n) (s.drawn p (holdWeight h) n))).map
      (fun g => g.detachedFrom (fun m => m == n && ended))
  freedBehind : s.pool.freeList <+: P.freeList

theorem Pool.detach_descriptors (P : Pool) (n : ConduitNo) (h : Handle) :
    (P.detach n).descriptors[h] = P.descriptors[h].map (fun g => g.detachedFrom (fun m => m == n)) := by
  have : (P.detach n).descriptors[h] = P.descriptors[h].map (Segment.detachFrom n) := by
    simp only [Pool.detach, Fin.getElem_fin]
    exact getElem_mapEntries _ _ _ _
  rw [this, show Segment.detachFrom n = fun g => g.detachedFrom (fun m => m == n) from
    funext (fun g => g.detachFrom_eq n)]

theorem PoolDeparted.of_lost {P : Pool} {i j : Handle → Nat} (hl : s.pool.Lost P i j)
    (hi : ∀ h, s.drawn p (queueWeight h) n = i h) (hj : ∀ h, s.drawn p (holdWeight h) n = j h) (ended : Bool) :
    PoolDeparted s p n ended (if ended = true then P.detach n else P) := by
  have hd : ∀ h : Handle, P.descriptors[h] =
      (s.segment h).bind (fun g => g.less (s.drawn p (queueWeight h) n) (s.drawn p (holdWeight h) n)) := fun h => by
    rw [hl.descriptors, hi, hj]; rfl
  cases ended with
  | true =>
    refine ⟨fun h => ?_, hl.freedBehind⟩
    rw [if_pos rfl, Pool.detach_descriptors, hd]
    simp
  | false =>
    refine ⟨fun h => ?_, hl.freedBehind⟩
    rw [if_neg (by simp), hd]
    simp [Segment.detachedFrom_none]

/-- Nothing is drawn where the port queues and holds nothing. -/
theorem PoolDeparted.of_idle (ha : s.pool.Referenced) (hi : ∀ w : Endpoint → Nat,
    (∀ e : Endpoint, e.queue = [] → e.holds = [] → w e = 0) → s.drawn p w n = 0) (ended : Bool) :
    PoolDeparted s p n ended (if ended = true then s.pool.detach n else s.pool) :=
  .of_lost (.refl ha) (fun h => hi _ (fun e hq _ => by simp [queueWeight, hq]))
    (fun h => hi _ (fun e _ hh => by simp [holdWeight, Endpoint.holdsOf, hh])) ended

/-! #### The removal of a member -/

theorem Channel.without_drained {ch : Channel} {e : Endpoint} {f : Flow → Flow} :
    ((ch.without e.port).mapFlow f).drained =
      ch.members.all (fun x => x.port == e.port || (x.queue.isEmpty && x.holds.isEmpty)) := by
  simp only [Channel.drained, Channel.mapFlow, Channel.without]
  rw [List.all_filter]
  simp only [bne, Bool.not_not]

/-- The slot's use without a member, its flow fields after the freeing notices of the removal. -/
def State.leftBy (s : State) (ch : Channel) (e : Endpoint) : Channel :=
  (ch.without e.port).mapFlow (fun f => f.afterFreeing (s.freedWith e))

/-- The first record of a removal (R43). -/
def State.goneRecords (n : ConduitNo) (ch : Channel) (e : Endpoint) (r : GoneReason) (q : Port) : List Event :=
  if q = ch.producer ∧ ch.producerPresent = true then [.consumerGone n e.port r] else []

section Removal

variable {ch : Channel} {e : Endpoint}

theorem State.useWithout_of_ends (h : ch.endsWithout e.port = true) : s.useWithout ch e = none := by
  rw [State.useWithout, if_pos h]

theorem State.useWithout_of_stays (h : ch.endsWithout e.port = false) : s.useWithout ch e = some (s.leftBy ch e) := by
  rw [State.useWithout, if_neg (by rw [h]; simp)]
  rfl

theorem Channel.endsWithout_of_last (h : ch.members.all (fun x => x.port == p) = true) : ch.endsWithout p = true := by
  unfold Channel.endsWithout
  split
  · exact List.all_eq_true.2 (fun x hx => by rw [List.all_eq_true.1 h x hx, Bool.true_or])
  · exact h
  · exact h

theorem Channel.endsWithout_opened {f : Flow} (hst : ch.stage = .opened f) :
    ch.endsWithout p = ch.members.all (fun x => x.port == p) := by
  rw [Channel.endsWithout, hst]

/-- A DRAINING conduit ends with a member where the others have nothing. -/
theorem State.leftBy_drained {f : Flow} (hst : ch.stage = .draining f) :
    (s.leftBy ch e).drained = ch.endsWithout e.port := by
  rw [State.leftBy, Channel.without_drained, Channel.endsWithout, hst]

theorem State.leftBy_producerApart (hp : ch.producer ∉ ch.memberPorts) :
    (s.leftBy ch e).producer ∉ (s.leftBy ch e).memberPorts :=
  fun hm => hp (Channel.mem_without_ports.1 hm).1

theorem State.leftBy_nodup (hn : ch.memberPorts.Nodup) : (s.leftBy ch e).memberPorts.Nodup :=
  hn.sublist (List.filter_sublist.map _)

theorem State.endRecords_leftBy (reason : EndReason) (q : Port) : s.endRecords n (s.leftBy ch e) reason q =
    if q = ch.producer ∧ ch.producerPresent = true ∨ q ∈ ch.memberPorts ∧ q ≠ e.port then
      [.conduitEnded n (s.conduit n).generation reason] else [] := by
  unfold State.endRecords
  congr 1
  exact propext (or_congr Iff.rfl Channel.mem_without_ports)

/-- A removal, up to the check that ends the conduit. -/
theorem State.removeMember_eq (hc : s.channel n = some ch) (hep : ch.endpoint? e.port = some e) (r : GoneReason) :
    s.removeMember n e.port r =
      (if ch.members.all (fun x => x.port == e.port) then
        (((s.slotTo n (some (ch.without e.port)) s.pool (State.goneRecords n ch e r)).claims .removeQueued e.queue).claims
          .removeHeld (e.holds.map (fun d => d.handle))).endConduit n .noConsumers
      else
        (((s.slotTo n (some (ch.without e.port)) s.pool (State.goneRecords n ch e r)).claims .removeQueued e.queue).claims
          .removeHeld (e.holds.map (fun d => d.handle))).drainCheck n) := by
  have htold : (s.setChannel n (some (ch.without e.port))).appendEvents (if ch.producerPresent then [ch.producer] else [])
      (.consumerGone n e.port r) =
      s.slotTo n (some (ch.without e.port)) s.pool (State.goneRecords n ch e r) := by
    rw [State.appendEvents_of_nodup _ _ (by split <;> simp)]
    refine State.tell_congr (fun q _ => ?_)
    unfold State.goneRecords
    cases ch.producerPresent <;> simp
  rw [← htold]
  unfold State.removeMember
  rw [hc]
  simp only
  rw [hep]
  rfl

/-- The slot and the records where the removal ends the conduit. -/
theorem State.slotTo_removal_ends {f : Flow} {reason : EndReason} {P : Pool} (r : GoneReason)
    (hends : ch.endsWithout e.port = true)
    (hreason : reason = if ch.members.all (fun x => x.port == e.port) then .noConsumers else .drained) :
    s.slotTo n none (P.detach n) (fun q => (State.goneRecords n ch e r q ++
        if q = ch.producer ∧ f.reopens (s.freedWith e) = true then [.windowOpen n] else []) ++
      s.endRecords n (s.leftBy ch e) reason q) =
    s.slotTo n (s.useWithout ch e) (if (s.useWithout ch e).isNone = true then P.detach n else P)
      (s.removalRecords n ch f e r) := by
  rw [State.useWithout_of_ends hends]
  refine State.tell_congr (fun q _ => ?_)
  simp only [State.endRecords_leftBy, State.removalRecords, hends, hreason, true_and]
  rfl

/-- The slot and the records where the removal leaves the conduit. -/
theorem State.slotTo_removal_stays {f : Flow} {P : Pool} (r : GoneReason) (hstays : ch.endsWithout e.port = false) :
    s.slotTo n (some (s.leftBy ch e)) P (fun q => State.goneRecords n ch e r q ++
      if q = ch.producer ∧ f.reopens (s.freedWith e) = true then [.windowOpen n] else []) =
    s.slotTo n (s.useWithout ch e) (if (s.useWithout ch e).isNone = true then P.detach n else P)
      (s.removalRecords n ch f e r) := by
  rw [State.useWithout_of_stays hstays]
  refine State.tell_congr (fun q _ => ?_)
  simp only [State.removalRecords, hstays, Bool.false_eq_true, false_and, if_false, List.append_nil]
  rfl

/-- A removal: the slot's use without the member, its records in the order of R43, and the references it had. -/
theorem State.removeMember_slotTo (hr : Referred T F s) {f : Flow} (r : GoneReason)
    (hc : s.channel n = some ch) (hf : ch.stage.flow? = some f)
    (hep : ch.endpoint? p = some e) (hp : ch.producer ∉ ch.memberPorts) :
    ∃ P, PoolDeparted s p n (s.useWithout ch e).isNone P ∧
      s.removeMember n p r = s.slotTo n (s.useWithout ch e) P (s.removalRecords n ch f e r) := by
  have hnd := hr.sound.tidy.distinct n ch hc
  obtain ⟨he, rfl⟩ := Channel.endpoint?_some hep
  obtain ⟨P, hlost, hclaims⟩ := State.removal_claims (s := s) (n := n) (ch := ch.without e.port) (f := f) (e := e)
    (R := State.goneRecords n ch e r)
    hr.referenced hf (fun h hh g hg => hr.sound.named.queued n ch e h g hc he hh hg)
    (fun d hd g hg => by
      obtain ⟨g', hg', -, hcon⟩ := hr.held_live hc he hd
      rw [hg] at hg'
      cases hg'
      exact hcon)
  refine ⟨_, .of_lost hlost (fun h => State.drawn_of_member hc hnd he) (fun h => State.drawn_of_member hc hnd he) _, ?_⟩
  have hp' := State.leftBy_producerApart (s := s) (e := e) hp
  have hn' := State.leftBy_nodup (s := s) (e := e) hnd
  rw [State.removeMember_eq hc hep, hclaims]
  by_cases hall : ch.members.all (fun x => x.port == e.port) = true
  · rw [if_pos hall]
    exact (State.endConduit_slotTo .noConsumers hp' hn').trans
      (State.slotTo_removal_ends r (Channel.endsWithout_of_last hall) (by rw [if_pos hall]))
  · rw [if_neg hall]
    cases hst : ch.stage with
    | offered d => rw [hst] at hf; cases hf
    | opened g =>
      have hstage : (s.leftBy ch e).stage = .opened (g.afterFreeing (s.freedWith e)) := by
        simp [State.leftBy, Channel.mapFlow, Channel.without, hst, Stage.mapFlow]
      exact (State.drainCheck_slotTo_opened hstage).trans
        (State.slotTo_removal_stays r (by rw [Channel.endsWithout_opened hst]; simpa using hall))
    | draining g =>
      have hstage : (s.leftBy ch e).stage = .draining (g.afterFreeing (s.freedWith e)) := by
        simp [State.leftBy, Channel.mapFlow, Channel.without, hst, Stage.mapFlow]
      refine (State.drainCheck_slotTo_draining hstage hp' hn').trans ?_
      rw [State.leftBy_drained hst]
      cases hends : ch.endsWithout e.port with
      | true => exact State.slotTo_removal_ends r hends (by rw [if_neg hall])
      | false => exact State.slotTo_removal_stays r hends

end Removal

/-! #### The departure from one slot -/

/-- The use of a slot in use from which its producer departs: DRAINING, or ended where it is drained (R41, R45). -/
def Channel.undirected (ch : Channel) (f : Flow) : Option Channel :=
  if ch.drained then none else some { ch with producerPresent := false, stage := .draining f }

/-- The producer's departure, and the drain check behind it (R41, R45). -/
theorem State.producerGone_slotTo {ch : Channel} {f : Flow} (hf : ch.drain.stage = .draining f)
    (hp : ch.producer ∉ ch.memberPorts) (hn : ch.memberPorts.Nodup) :
    ((s.setChannel n (some { ch.drain with producerPresent := false })).appendEvents ch.memberPorts
      (.producerGone n)).drainCheck n =
    s.slotTo n (ch.undirected f) (if (ch.undirected f).isNone = true then s.pool.detach n else s.pool)
      (fun q => if q ∈ ch.memberPorts then
        [.producerGone n] ++ if ch.drained then [.conduitEnded n (s.conduit n).generation .drained] else []
        else []) := by
  have hch : ({ ch.drain with producerPresent := false } : Channel) =
      { ch with producerPresent := false, stage := .draining f } := by
    rw [← hf]
    unfold Channel.drain
    split <;> rfl
  have htold : (s.setChannel n (some { ch.drain with producerPresent := false })).appendEvents ch.memberPorts
      (.producerGone n) = s.slotTo n (some { ch with producerPresent := false, stage := .draining f }) s.pool
        (fun q => if q ∈ ch.memberPorts then [.producerGone n] else []) := by
    rw [State.appendEvents_of_nodup _ _ hn, hch]
    rfl
  have hdr : ({ ch with producerPresent := false, stage := .draining f } : Channel).drained = ch.drained := rfl
  rw [htold, State.drainCheck_slotTo_draining (ch := { ch with producerPresent := false, stage := .draining f }) rfl
    hp hn, hdr, Channel.undirected]
  cases hd : ch.drained with
  | true =>
    refine State.tell_congr (fun q _ => ?_)
    simp only [State.endRecords, Channel.memberPorts, Bool.false_eq_true, and_false, false_or, if_true]
    by_cases hq : q ∈ ch.members.map (fun e => e.port)
    · simp only [hq, if_true]
    · simp only [hq, if_false, List.append_nil]
  | false =>
    refine State.tell_congr (fun q _ => ?_)
    simp

/-- The departure of a port that is not ATTACHED any more, as one slot sees it (R45, R46). -/
theorem State.departConduit_slotTo (hr : Referred T F s) (hgone : ¬ s.Attached p)
    (hprod : ∀ ch, s.channel n = some ch → ch.producer ∉ ch.memberPorts) {ch : Channel} (hc : s.channel n = some ch)
    (hpart : ch.presentProducer p = true ∨ p ∈ ch.memberPorts) :
    ∃ P, PoolDeparted s p n (s.departedUse p n).isNone P ∧
      s.departConduit p n = s.slotTo n (s.departedUse p n) P (s.departureRecords p n) := by
  have hp := hprod ch hc
  have hnd := hr.sound.tidy.distinct n ch hc
  have hother : ∀ q, s.Attached q → q ≠ p := fun q hq e => hgone (e ▸ hq)
  have idle : p ∉ ch.memberPorts ∨ (∃ d, ch.stage = .offered d) → ∀ w : Endpoint → Nat,
      (∀ e : Endpoint, e.queue = [] → e.holds = [] → w e = 0) → s.drawn p w n = 0 := fun h w hw => by
    obtain h | ⟨d, hd⟩ := h
    · exact State.drawn_of_not_member hc h
    · exact State.drawn_of_weightless hc (fun e he => by
        obtain ⟨hq, hh⟩ := hr.sound.tidy.idle n ch d hc hd e he
        exact hw e hq hh)
  unfold State.departConduit State.departedUse State.departureRecords
  simp only [hc]
  by_cases hpp : ch.presentProducer p = true
  · have hpm : p ∉ ch.memberPorts := by
      simp only [Channel.presentProducer, Bool.and_eq_true, beq_iff_eq] at hpp
      exact hpp.1 ▸ hp
    simp only [hpp, if_true]
    have draining : ∀ f, PoolDeparted s p n (ch.undirected f).isNone
        (if (ch.undirected f).isNone = true then s.pool.detach n else s.pool) :=
      fun f => .of_idle hr.referenced (idle (.inl hpm)) _
    cases hst : ch.stage with
    | offered d =>
      refine ⟨_, .of_idle hr.referenced (idle (.inl hpm)) _, ?_⟩
      exact State.failOffer_slotTo _ hnd
    | opened f =>
      exact ⟨_, draining { f with windowLatch := false },
        State.producerGone_slotTo (by simp [Channel.drain, hst]) hp hnd⟩
    | draining f =>
      exact ⟨_, draining { f with windowLatch := false },
        State.producerGone_slotTo (by simp [Channel.drain, hst]) hp hnd⟩
  · simp only [hpp]
    obtain ⟨e, he⟩ : ∃ e, ch.endpoint? p = some e := by
      cases he : ch.endpoint? p with
      | some e => exact ⟨e, rfl⟩
      | none => exact absurd (hpart.resolve_left hpp) (Channel.endpoint?_eq_none.1 he)
    simp only [he]
    cases hst : ch.stage with
    | offered d =>
      refine ⟨_, .of_idle hr.referenced (idle (.inr ⟨d, hst⟩)) _, ?_⟩
      refine (State.failOffer_slotTo _ (List.nodup_cons.2 ⟨fun hm => hp (List.mem_filter.1 hm).1, hnd.filter _⟩)).trans ?_
      refine State.tell_congr (fun q hq => ?_)
      have := hother q hq
      simp [this]
    | opened f => exact State.removeMember_slotTo hr .departed hc (by rw [hst]; rfl) he hp
    | draining f => exact State.removeMember_slotTo hr .departed hc (by rw [hst]; rfl) he hp

end Slot

end Sys2Proof.Machine


/-! ### A departure, slot by slot

What one slot's departure changes is not what another slot's reads: an entry names a descriptor of its own conduit. -/

namespace Sys2Proof.Machine

section Slots

variable {s t u : State} {T : Handle → Nat} {F : Port → Option Handle} {p : Port} {n m : ConduitNo} {l : List ConduitNo}

/-- The slot ends with the departure of a port. -/
def State.ends (s : State) (p : Port) (n : ConduitNo) : Bool := (s.channel n).isSome && (s.departedUse p n).isNone

/-- A state after the departure of a port has passed over these slots. -/
structure SlotsDeparted (s t : State) (p : Port) (l : List ConduitNo) : Prop where
  surroundings : SameSurroundings s t
  slots : ∀ n, t.conduit n =
    if n ∈ l then { generation := (s.conduit n).generation, channel := s.departedUse p n } else s.conduit n
  segments : ∀ h, t.segment h =
    ((s.segment h).bind (fun g => g.less (l.map (s.drawn p (queueWeight h))).sum
      (l.map (s.drawn p (holdWeight h))).sum)).map (fun g => g.detachedFrom (fun n => decide (n ∈ l) && s.ends p n))
  freedBehind : s.pool.freeList <+: t.pool.freeList
  events : t.events = s.heard (fun q => l.flatMap (fun n => s.departureRecords p n q))

theorem State.segment_less_zero (ha : s.pool.Referenced) (h : Handle) :
    (s.segment h).bind (fun g => g.less 0 0) = s.segment h := by
  cases hg : s.segment h with
  | none => rfl
  | some g => rw [Option.bind_some, Segment.less_zero (ha h g hg)]

theorem Option.map_detachedFrom_none (x : Option Segment) : x.map (fun g => g.detachedFrom (fun _ => false)) = x := by
  simp [Segment.detachedFrom_none]

theorem SlotsDeparted.refl (ha : s.pool.Referenced) : SlotsDeparted s s p [] where
  surroundings := .refl s
  slots n := by simp
  segments h := by simp [Segment.detachedFrom_none, State.segment_less_zero ha]
  freedBehind := List.prefix_rfl
  events := by simp [State.heard_nil]

/-- A slot in which the port has no part. -/
theorem State.departConduit_apart
    (h : ∀ ch, s.channel n = some ch → ch.presentProducer p = false ∧ p ∉ ch.memberPorts) :
    s.departConduit p n = s ∧ s.departedUse p n = s.channel n ∧ (∀ q, s.departureRecords p n q = []) ∧
      ∀ w, s.drawn p w n = 0 := by
  unfold State.departConduit State.departedUse State.departureRecords
  cases hc : s.channel n with
  | none => exact ⟨rfl, rfl, fun _ => rfl, fun w => State.drawn_of_none hc⟩
  | some ch =>
    obtain ⟨hpp, hpm⟩ := h ch hc
    have he : ch.endpoint? p = none := Channel.endpoint?_eq_none.2 hpm
    simp only [hpp, he, Bool.false_eq_true, if_false]
    exact ⟨trivial, trivial, fun _ => trivial, fun w => State.drawn_of_not_member hc hpm⟩

theorem State.departConduit_slots (hr : Referred T F s) (hgone : ¬ s.Attached p)
    (hprod : ∀ ch, s.channel n = some ch → ch.producer ∉ ch.memberPorts) :
    SlotsDeparted s (s.departConduit p n) p [n] := by
  by_cases hpart : ∀ ch, s.channel n = some ch → ch.presentProducer p = false ∧ p ∉ ch.memberPorts
  · obtain ⟨he, huse, hrec, hdrawn⟩ := State.departConduit_apart hpart
    have hends : s.ends p n = false := by
      unfold State.ends
      rw [huse]
      cases s.channel n <;> rfl
    rw [he]
    refine ⟨.refl s, fun m => ?_, fun h => ?_, List.prefix_rfl, ?_⟩
    · split
      · rename_i hm
        rw [List.mem_singleton.1 hm, huse]
        rfl
      · rfl
    · have hnone : (fun m => decide (m ∈ [n]) && s.ends p m) = fun _ => false := by
        funext m
        by_cases hm : m = n
        · rw [hm, hends, Bool.and_false]
        · simp [hm]
      simp only [hnone, Option.map_detachedFrom_none, List.map_cons, List.map_nil, List.sum_singleton, hdrawn,
        State.segment_less_zero hr.referenced]
    · simp [hrec, State.heard_nil]
  · push Not at hpart
    obtain ⟨ch, hc, hpart⟩ := hpart
    have hpart' : ch.presentProducer p = true ∨ p ∈ ch.memberPorts := by
      cases hpp : ch.presentProducer p with
      | true => exact .inl rfl
      | false => exact .inr (by simpa using hpart hpp)
    obtain ⟨P, hP, he⟩ := State.departConduit_slotTo hr hgone hprod hc hpart'
    rw [he]
    refine ⟨State.slotTo_surroundings _ _ _, fun m => ?_, fun h => ?_, hP.freedBehind, ?_⟩
    · rw [State.slotTo_conduit]
      by_cases hm : m = n
      · rw [if_pos hm, if_pos (List.mem_singleton.2 hm), hm]
      · rw [if_neg hm, if_neg (fun e => hm (List.mem_singleton.1 e))]
    · rw [State.slotTo_segment, hP.descriptors]
      simp only [List.map_cons, List.map_nil, List.sum_singleton]
      congr 1
      funext g
      congr 1
      funext m
      by_cases hm : m = n
      · subst hm; simp [State.ends, hc]
      · simp [hm]
    · show State.heard _ _ = _
      simp only [List.flatMap_cons, List.flatMap_nil, List.append_nil]
      rfl

/-! #### What one slot reads of a state -/

theorem State.departedUse_congr (hc : t.channel m = s.channel m)
    (hf : ∀ ch e, s.channel m = some ch → ch.endpoint? p = some e → t.freedWith e = s.freedWith e) :
    t.departedUse p m = s.departedUse p m := by
  unfold State.departedUse
  rw [hc]
  cases hs : s.channel m with
  | none => rfl
  | some ch =>
    simp only
    split
    · rfl
    · cases he : ch.endpoint? p with
      | none => rfl
      | some e => simp only [State.useWithout, hf ch e hs he]

theorem State.departureRecords_congr (hc : t.channel m = s.channel m)
    (hg : (t.conduit m).generation = (s.conduit m).generation)
    (hf : ∀ ch e, s.channel m = some ch → ch.endpoint? p = some e → t.freedWith e = s.freedWith e) (q : Port) :
    t.departureRecords p m q = s.departureRecords p m q := by
  unfold State.departureRecords
  rw [hc]
  cases hs : s.channel m with
  | none => rfl
  | some ch =>
    simp only [hg]
    split
    · rfl
    · cases he : ch.endpoint? p with
      | none => rfl
      | some e => simp only [State.removalRecords, hf ch e hs he, hg]

/-- A descriptor of another conduit than the slots passed over is as it was. -/
theorem SlotsDeparted.segment_other (h : SlotsDeparted s t p l) (hr : Referred T F s) (hm : m ∉ l) {k : Handle}
    {g : Segment} (hg : s.segment k = some g) (hcon : g.conduit = some m) : t.segment k = some g := by
  have zero : ∀ w : Endpoint → Nat, (∀ n ch e, n ∈ l → s.channel n = some ch → e ∈ ch.members → w e = 0) →
      (l.map (s.drawn p w)).sum = 0 := fun w hw => by
    refine List.sum_eq_zero (fun x hx => ?_)
    obtain ⟨n, hn, rfl⟩ := List.mem_map.1 hx
    cases hc : s.channel n with
    | none => exact State.drawn_of_none hc
    | some ch => exact State.drawn_of_weightless hc (fun e he => hw n ch e hn hc he)
  have hne : ∀ n ∈ l, n ≠ m := fun n hn e => hm (e ▸ hn)
  have hq := zero (queueWeight k) (fun n ch e hn hc he => List.count_eq_zero.2 (fun hk => hne n hn (by
    have := hr.sound.named.queued n ch e k g hc he hk hg
    rw [hcon, Option.some.injEq] at this
    exact this.symm)))
  have hh := zero (holdWeight k) (fun n ch e hn hc he => List.countP_eq_zero.2 (fun d hd hdk => hne n hn (by
    obtain ⟨g', hg', -, hcon'⟩ := hr.held_live hc he hd
    rw [beq_iff_eq] at hdk
    rw [hdk, hg] at hg'
    cases hg'
    rw [hcon, Option.some.injEq] at hcon'
    exact hcon'.symm)))
  rw [h.segments, hg, Option.bind_some, hq, hh, Segment.less_zero (hr.referenced k g hg), Option.map_some,
    Segment.detachedFrom_of_not (fun n hn => ?_)]
  rw [hcon, Option.some.injEq] at hn
  subst hn
  simp [hm]

/-- What the removal of a member frees is the same after other slots have been passed over. -/
theorem SlotsDeparted.freedWith (h : SlotsDeparted s t p l) (hr : Referred T F s) (hrt : Referred T F t) (hm : m ∉ l)
    {ch : Channel} {e : Endpoint} (hc : s.channel m = some ch) (he : e ∈ ch.members) :
    t.freedWith e = s.freedWith e := by
  unfold State.freedWith State.freedBy
  refine congrArg (fun c => allHandles.countP c) (funext (fun k => ?_))
  by_cases hzero : e.queue.count k = 0 ∧ e.holdsOf k = 0
  · have keeps : ∀ v : State, v.pool.Referenced →
        (v.segment k).any (fun g => (g.less (e.queue.count k) (e.holdsOf k)).isNone) = false := fun v hv => by
      rw [hzero.1, hzero.2]
      cases hg : v.segment k with
      | none => rfl
      | some g => rw [Option.any_some, Segment.less_zero (hv k g hg)]; rfl
    rw [keeps t hrt.referenced, keeps s hr.referenced]
  · have hnamed : ∃ g, s.segment k = some g ∧ g.conduit = some m := by
      rw [not_and_or] at hzero
      obtain hq | hh := hzero
      · obtain ⟨g, q, hg, -, hcon⟩ := hr.queued_live hc he (List.count_pos_iff.1 (Nat.pos_of_ne_zero hq))
        exact ⟨g, hg, hcon⟩
      · obtain ⟨d, hd, hdk⟩ := List.countP_pos_iff.1 (Nat.pos_of_ne_zero hh)
        obtain ⟨g, hg, -, hcon⟩ := hr.held_live hc he hd
        rw [beq_iff_eq] at hdk
        exact ⟨g, hdk ▸ hg, hcon⟩
    obtain ⟨g, hg, hcon⟩ := hnamed
    rw [h.segment_other hr hm hg hcon, hg]

/-- What slots that come later read of a state after one slot has been passed over. -/
structure Unread (s t : State) (p : Port) (n : ConduitNo) : Prop where
  conduit : ∀ m, m ≠ n → t.conduit m = s.conduit m
  use : ∀ m, m ≠ n → t.departedUse p m = s.departedUse p m
  records : ∀ m, m ≠ n → ∀ q, t.departureRecords p m q = s.departureRecords p m q
  ends : ∀ m, m ≠ n → t.ends p m = s.ends p m
  drawn : ∀ m, m ≠ n → ∀ w, t.drawn p w m = s.drawn p w m

theorem SlotsDeparted.unread (h : SlotsDeparted s t p [n]) (hr : Referred T F s) (hrt : Referred T F t) :
    Unread s t p n := by
  have hmem : ∀ m, m ≠ n → m ∉ [n] := fun m hm e => hm (List.mem_singleton.1 e)
  have hconduit : ∀ m, m ≠ n → t.conduit m = s.conduit m := fun m hm => by rw [h.slots, if_neg (hmem m hm)]
  have hchannel : ∀ m, m ≠ n → t.channel m = s.channel m := fun m hm => congrArg Conduit.channel (hconduit m hm)
  have hfreed : ∀ m, m ≠ n → ∀ ch e, s.channel m = some ch → ch.endpoint? p = some e → t.freedWith e = s.freedWith e :=
    fun m hm ch e hc he => h.freedWith hr hrt (hmem m hm) hc (Channel.endpoint?_some he).1
  have huse : ∀ m, m ≠ n → t.departedUse p m = s.departedUse p m := fun m hm =>
    State.departedUse_congr (hchannel m hm) (hfreed m hm)
  exact ⟨hconduit, huse, fun m hm q => State.departureRecords_congr (hchannel m hm)
    (congrArg Conduit.generation (hconduit m hm)) (hfreed m hm) q,
    fun m hm => by rw [State.ends, huse m hm, hchannel m hm, State.ends],
    fun m hm w => by rw [State.drawn, hchannel m hm, State.drawn]⟩

/-- Records heard after others. -/
theorem State.heard_heard {f g : Port → List Event} (hp : t.ports = s.ports) (he : t.events = s.heard f) :
    t.heard g = s.heard (fun q => f q ++ g q) := by
  have hsame : t.heard g = (s.tell f).heard g := by
    apply PerPort.ext_get
    intro q
    have hev : t.events.get q = (s.tell f).events.get q := by rw [he]; rfl
    have hat : t.Attached q ↔ (s.tell f).Attached q := by
      unfold State.Attached
      rw [State.port_congr hp, State.port_congr (State.tell_ports s f)]
    rw [State.heard_get, State.heard_get]
    unfold State.hears
    rw [hev]
    exact if_congr hat rfl rfl
  rw [hsame]
  exact congrArg State.events (s.tell_tell f g)

/-- References lost and conduits left in two turns. -/
theorem Segment.left_left (x : Option Segment) (i j i' j' : Nat) (a b : ConduitNo → Bool) :
    (((x.bind (fun g => g.less i j)).map (fun g => g.detachedFrom a)).bind (fun g => g.less i' j')).map
        (fun g => g.detachedFrom b) =
      (x.bind (fun g => g.less (i + i') (j + j'))).map (fun g => g.detachedFrom (fun n => a n || b n)) := by
  cases x with
  | none => rfl
  | some g =>
    simp only [Option.bind_some]
    rw [← g.less_less i j i' j']
    cases g.less i j with
    | none => rfl
    | some g' =>
      simp only [Option.map_some, Option.bind_some]
      rw [Segment.detachedFrom_less, Option.map_map]
      congr 1
      funext x
      exact x.detachedFrom_detachedFrom a b

/-- One slot, and then others. -/
theorem SlotsDeparted.cons (h : SlotsDeparted s t p [n]) (h' : SlotsDeparted t u p l) (hn : n ∉ l)
    (hu : Unread s t p n) : SlotsDeparted s u p (n :: l) where
  surroundings := h.surroundings.trans h'.surroundings
  slots m := by
    rw [h'.slots]
    by_cases hm : m = n
    · rw [hm, if_neg hn, h.slots, if_pos (List.mem_singleton.2 rfl), if_pos List.mem_cons_self]
    · rw [hu.use m hm, hu.conduit m hm]
      simp [hm]
  segments k := by
    have hdrawn : ∀ w, l.map (t.drawn p w) = l.map (s.drawn p w) := fun w =>
      List.map_congr_left (fun m hm => hu.drawn m (fun e => hn (e ▸ hm)) w)
    have hends : (fun m => (decide (m ∈ [n]) && s.ends p m) || (decide (m ∈ l) && t.ends p m)) =
        fun m => decide (m ∈ n :: l) && s.ends p m := by
      funext m
      by_cases hm : m = n
      · simp [hm, hn]
      · simp [hm, hu.ends m hm]
    rw [h'.segments, h.segments, hdrawn, hdrawn, Segment.left_left, hends]
    rfl
  freedBehind := h.freedBehind.trans h'.freedBehind
  events := by
    have hrecords : (fun q => l.flatMap (fun m => t.departureRecords p m q)) =
        fun q => l.flatMap (fun m => s.departureRecords p m q) := by
      funext q
      exact List.flatMap_congr (fun m hm => hu.records m (fun e => hn (e ▸ hm)) q)
    rw [h'.events, hrecords, State.heard_heard h.surroundings.ports h.events]
    congr 1
    funext q
    simp

/-- The departure passes over the slots one by one. -/
theorem State.departSlots (hr : Referred T F s) (hgone : ¬ s.Attached p)
    (hprod : ∀ n ∈ l, ∀ ch, s.channel n = some ch → ch.producer ∉ ch.memberPorts) (hl : l.Nodup) :
    SlotsDeparted s (l.foldl (fun s n => s.departConduit p n) s) p l := by
  induction l generalizing s with
  | nil => exact .refl hr.referenced
  | cons n l ih =>
    rw [List.nodup_cons] at hl
    have h1 := State.departConduit_slots hr hgone (hprod n List.mem_cons_self)
    have hr1 := hr.departConduit p n
    have hu := h1.unread hr hr1
    refine h1.cons (ih hr1 ?_ ?_ hl.2) hl.1 hu
    · unfold State.Attached
      rw [State.port_congr h1.surroundings.ports]
      exact hgone
    · intro m hm ch hc
      have hmn : m ≠ n := fun e => hl.1 (e ▸ hm)
      refine hprod m (List.mem_cons_of_mem _ hm) ch ?_
      exact (congrArg Conduit.channel (hu.conduit m hmn)).symm.trans hc

end Slots

end Sys2Proof.Machine


/-! ### A whole departure -/

namespace Sys2Proof.Machine

section Departure

variable {s t : State} {T : Handle → Nat} {F : Port → Option Handle} {p : Port} {n : ConduitNo}

/-! #### The shares of the units behind the Conduit Table -/

theorem allConduits_nodup : allConduits.Nodup := by decide

theorem mem_allConduits (n : ConduitNo) : n ∈ allConduits :=
  List.mem_map.2 ⟨n.val, List.mem_range.2 n.isLt, Fin.ext (Nat.mod_eq_of_lt n.isLt)⟩

/-- The records of the requests to a port that departs (R109). -/
def State.refusedRecords (s : State) (p q : Port) : List Event :=
  ((s.attention.queues.get p).filter (fun e => e.source == q)).map (fun e => .attnRefused p e.vector)

/-- The records of a proposal that a departure abandons (R121, R129). -/
def State.abandonedRecords (s : State) (p q : Port) : List Event :=
  match s.partition.proposal with
  | some pr => if pr.votes.get q ≠ .none then [.partitionResolved pr.id (.abandoned p) s.partition.generation] else []
  | none => []

theorem State.refusals_eq_tell (p : Port) (l : List AttentionEntry) (s : State) :
    l.foldl (fun s e => s.appendEvent e.source (.attnRefused p e.vector)) s =
      s.tell (fun q => (l.filter (fun e => e.source == q)).map (fun e => .attnRefused p e.vector)) := by
  induction l generalizing s with
  | nil => simp [State.tell_nil]
  | cons a l ih =>
    rw [List.foldl_cons, ih, State.appendEvent_eq_tell, State.tell_tell]
    congr 1
    funext q
    by_cases hq : a.source = q
    · simp [hq]
    · have : q ≠ a.source := fun e => hq e.symm
      simp [hq, this]

/-- The Attention Unit without the requests to and from a port (R109, R110). -/
def Attention.without (a : Attention) (p : Port) : Attention :=
  { queues := PerPort.ofFn (fun t => if t = p then [] else withoutSource p (a.queues.get t))
    pairs := PerPort.ofFn (fun source => PerPort.ofFn (fun target =>
      if source = p ∨ target = p then .none else a.pair source target)) }

theorem State.departAttention_eq (s : State) (p : Port) : s.departAttention p =
    ({ s with attention := s.attention.without p } : State).tell (s.refusedRecords p) := by
  unfold State.departAttention
  rw [State.refusals_eq_tell]
  rfl

theorem State.abandonProposal_eq (s : State) (p : Port) : s.abandonProposal p =
    ({ s with partition := { s.partition with proposal := none } } : State).tell (s.abandonedRecords p) := by
  unfold State.abandonProposal State.abandonedRecords
  cases hp : s.partition.proposal with
  | none =>
    have hsame : ({ s with partition := { s.partition with proposal := none } } : State) = s := by
      rw [← hp]
    rw [hsame]
    exact s.tell_nil.symm
  | some pr =>
    have hv : pr.voters.Nodup := Port.nodup_filter _
    simp only [State.resolveProposal]
    rw [State.appendEvents_of_nodup _ _ hv]
    refine State.tell_congr (fun q _ => ?_)
    simp [Proposal.voters]

theorem State.peersTold_eq (s : State) (p : Port) (e : Event) : s.appendEvents (otherPorts p) e =
    s.tell (fun q => if q ≠ p then [e] else []) := by
  have ho : (otherPorts p).Nodup := Port.nodup_filter _
  rw [State.appendEvents_of_nodup _ _ ho]
  refine State.tell_congr (fun q _ => ?_)
  simp [otherPorts]

/-! #### Which slots a port has left -/

theorem State.departedUse_out (hprod : ∀ ch, s.channel n = some ch → ch.producer ∉ ch.memberPorts) {ch' : Channel}
    (h : s.departedUse p n = some ch') : ch'.presentProducer p = false ∧ p ∉ ch'.memberPorts := by
  unfold State.departedUse at h
  cases hc : s.channel n with
  | none => simp [hc] at h
  | some ch =>
    simp only [hc] at h
    by_cases hpp : ch.presentProducer p = true
    · have hpm : p ∉ ch.memberPorts := by
        simp only [Channel.presentProducer, Bool.and_eq_true, beq_iff_eq] at hpp
        exact hpp.1 ▸ hprod ch hc
      rw [if_pos hpp] at h
      split at h
      · cases h
      · split at h
        · cases h
        · cases h; exact ⟨by simp [Channel.presentProducer], hpm⟩
      · split at h
        · cases h
        · cases h; exact ⟨by simp [Channel.presentProducer], hpm⟩
    · rw [if_neg hpp] at h
      rw [Bool.not_eq_true] at hpp
      split at h
      · rename_i he
        cases h
        exact ⟨hpp, Channel.endpoint?_eq_none.1 he⟩
      · rename_i e he
        have without : s.useWithout ch e = some ch' → ch'.presentProducer p = false ∧ p ∉ ch'.memberPorts := fun h => by
          unfold State.useWithout at h
          split at h
          · cases h
          · cases h
            refine ⟨hpp, fun hm => ?_⟩
            have hm' : p ∈ (ch.without e.port).memberPorts := hm
            exact (Channel.mem_without_ports.1 hm').2 (Channel.endpoint?_some he).2.symm
        split at h
        · cases h
        · exact without h
        · exact without h

/-! #### The sums of a departure -/

theorem sum_filter_map {α : Type} (c : α → Bool) (w : α → Nat) (l : List α) :
    ((l.filter c).map w).sum = (l.map (fun x => if c x = true then w x else 0)).sum := by
  induction l with
  | nil => rfl
  | cons a l ih => by_cases h : c a = true <;> simp [h, ih]

theorem State.drawn_sum (s : State) (p : Port) (w : Endpoint → Nat) :
    (allConduits.map (s.drawn p w)).sum = ((s.endpoints.filter (fun e => e.port == p)).map w).sum := by
  have h1 : (allConduits.map (s.drawn p w)).sum = s.tally (fun e => if e.port = p then w e else 0) :=
    (total_range (fun c : Conduit => slotSum (fun e => if e.port = p then w e else 0) c.channel) s.conduits).symm
  rw [h1, ← endpoints_sum, sum_filter_map]
  simp only [beq_iff_eq]

/-! #### The departure -/

/-- What the departure of a port comes to (R143, R144). -/
theorem State.depart_eq (hr : Referred T F s) {left : PortState} (hleft : left ≠ .attached)
    (hprod : ∀ n ch, s.channel n = some ch → ch.producer ∉ ch.memberPorts) (cause : DepartureCause) :
    ∃ u, SlotsDeparted
        (s.setPort p { s.port p with state := left, outcome := OutcomeRecord.initial, rotation := 23 }) u p allConduits ∧
      s.depart p cause left =
        (((({ u with
            attention := u.attention.without p
            partition := { u.partition with proposal := none } } : State).tell
          (fun q => u.refusedRecords p q ++ u.abandonedRecords p q)).clearEvents p).tell
          (fun q => if q ≠ p then [.peerDetached p cause] else [])) := by
  obtain ⟨u, hu⟩ : ∃ u, u = State.departConduits
      (s.setPort p { s.port p with state := left, outcome := OutcomeRecord.initial, rotation := 23 }) p := ⟨_, rfl⟩
  refine ⟨u, ?_, ?_⟩
  · rw [hu]
    refine State.departSlots (hr.store (s.setPort_store p _)) ?_ (fun n _ ch hc => hprod n ch hc) allConduits_nodup
    unfold State.Attached
    rw [State.setPort_port_self]
    exact hleft
  · have hshares : (u.departAttention p).abandonProposal p =
        ({ u with
            attention := u.attention.without p
            partition := { u.partition with proposal := none } } : State).tell
          (fun q => u.refusedRecords p q ++ u.abandonedRecords p q) := by
      rw [State.departAttention_eq, State.abandonProposal_eq]
      exact State.tell_tell ({ u with
            attention := u.attention.without p
            partition := { u.partition with proposal := none } } : State) _ _
    unfold State.depart
    simp only
    rw [← hu, hshares, State.peersTold_eq]

/-- A port that is not attached hears nothing. -/
theorem State.hears_apart {q : Port} (h : ¬ s.Attached q) {l : List Event} : s.hears q l = s.events.get q := by
  unfold State.hears
  rw [if_neg h]

/-- Records heard behind others. -/
theorem State.hears_append {q : Port} {a : List Event} (hat : t.Attached q ↔ s.Attached q)
    (hev : t.events.get q = s.hears q a) (b : List Event) : t.hears q b = s.hears q (a ++ b) := by
  unfold State.hears at hev ⊢
  by_cases h : s.Attached q
  · rw [if_pos h] at hev ⊢
    rw [if_pos (hat.2 h), hev, List.foldl_append]
  · rw [if_neg h] at hev ⊢
    rw [if_neg (fun e => h (hat.1 e)), hev]

theorem State.clearEvents_get (s : State) (p q : Port) : (s.clearEvents p).events.get q =
    if q = p then { s.events.get p with records := [] } else s.events.get q := by
  simp only [State.clearEvents, PerPort.get_set]

/-- The event queue of a port that is not attached, cleared while the others hear of its departure. -/
theorem State.cleared_get {v : State} (h : ¬ v.Attached p) (R f : Port → List Event) :
    (((v.tell R).clearEvents p).tell f).events.get p = { v.events.get p with records := [] } := by
  have hclear : ¬ ((v.tell R).clearEvents p).Attached p := h
  calc (((v.tell R).clearEvents p).tell f).events.get p
      = ((v.tell R).clearEvents p).hears p (f p) := State.heard_get _ _ _
    _ = { (v.tell R).events.get p with records := [] } := by
        rw [State.hears_apart hclear, State.clearEvents_get, if_pos rfl]
    _ = { v.events.get p with records := [] } := by
        rw [show (v.tell R).events.get p = v.hears p (R p) from State.heard_get _ _ _, State.hears_apart h]

theorem Attention.without_queue (a : Attention) (p b : Port) :
    (a.without p).queues.get b = if b = p then [] else (a.queues.get b).filter (fun e => e.source != p) := by
  simp [Attention.without, withoutSource]

theorem Attention.without_pair (a : Attention) (p b c : Port) :
    (a.without p).pair b c = if b = p ∨ c = p then .none else a.pair b c := by
  simp [Attention.without, Attention.pair]

/-- What a departure tells the ports, and what it leaves of their queues. -/
theorem State.depart_events {u : State} {gone : PortController} {R : Port → List Event} {cause : DepartureCause}
    (hs : u.ports = s.ports.set p gone) (hgone : gone.state ≠ .attached) (hev : u.events = (s.setPort p gone).heard R)
    (a : Attention) (pa : Partition) (q : Port) (R' : Port → List Event) :
    (((({ u with attention := a, partition := pa } : State).tell R').clearEvents p).tell
        (fun q => if q ≠ p then [.peerDetached p cause] else [])).events.get q =
      if q = p then { records := [], counter := (s.events.get p).counter }
      else s.hears q (R q ++ R' q ++ [.peerDetached p cause]) := by
  have hport : ∀ q, u.port q = (s.setPort p gone).port q := fun q => State.port_congr (s := s.setPort p gone) hs q
  have hat : ∀ q, q ≠ p → (u.Attached q ↔ s.Attached q) := fun q hq => by
    unfold State.Attached
    rw [hport, State.setPort_port_ne _ _ hq]
  have hnot : ¬ u.Attached p := by
    unfold State.Attached
    rw [hport, State.setPort_port_self]
    exact hgone
  have heard : ∀ (v : State) (f : Port → List Event), (v.tell f).events.get q = v.hears q (f q) :=
    fun v f => v.heard_get f q
  have h1 : u.events.get q = if q = p then s.events.get p else s.hears q (R q) := by
    rw [hev, State.heard_get]
    unfold State.hears State.Attached
    rw [← hport]
    by_cases hq : q = p
    · subst hq
      rw [if_pos rfl, if_neg hnot]
      rfl
    · rw [if_neg hq]
      exact if_congr (hat q hq) rfl rfl
  by_cases hq : q = p
  · subst hq
    rw [if_pos rfl] at h1 ⊢
    refine (State.cleared_get (v := { u with attention := a, partition := pa }) hnot R' _).trans ?_
    exact congrArg (fun x : EventQueue => ({ x with records := [] } : EventQueue)) h1
  · rw [if_neg hq] at h1 ⊢
    rw [heard, if_pos hq]
    refine State.hears_append
      (t := (({ u with attention := a, partition := pa } : State).tell R').clearEvents p) (hat q hq) ?_ _
    rw [State.clearEvents_get, if_neg hq, heard]
    exact State.hears_append (t := { u with attention := a, partition := pa }) (hat q hq) h1 _

/-- The departure of a port leaves what R143 and R144 say. -/
theorem State.depart_departedTo (hr : Referred T F s) {left : PortState} (hleft : left ≠ .attached)
    (hprod : ∀ n ch, s.channel n = some ch → ch.producer ∉ ch.memberPorts) (cause : DepartureCause) :
    DepartedTo s (s.depart p cause left) p cause := by
  have hacts := s.depart_acts p cause left
  have hports : ∀ q, q ≠ p → (s.depart p cause left).port q = s.port q := fun q hq => s.depart_port_ne hq cause left
  obtain ⟨u, hu, he⟩ := State.depart_eq hr hleft hprod (p := p) cause
  rw [he] at hacts hports ⊢
  have hsur := hu.surroundings
  have hslots : ∀ n, u.conduit n = { generation := (s.conduit n).generation, channel := s.departedUse p n } := fun n => by
    rw [hu.slots, if_pos (mem_allConduits n)]
    rfl
  have hatt : u.attention = s.attention := hsur.attention
  have hpar : u.partition = s.partition := hsur.partition
  have hevents := State.depart_events (p := p) (cause := cause) hsur.ports hleft hu.events (u.attention.without p)
    { u.partition with proposal := none }
  refine ⟨fun n ch hc => ?_, fun n hn => ?_, hslots, fun h => ?_, fun ha => ?_, hu.freedBehind, ?_, ⟨?_, fun q => ⟨?_, ?_⟩⟩,
    fun a b ha hb => ⟨?_, ?_⟩, ?_, fun q hq => ?_, hports, hsur.time⟩
  · have : s.departedUse p n = some ch := by
      rw [← hc]
      exact (congrArg Conduit.channel (hslots n)).symm
    exact State.departedUse_out (hprod n) this
  · refine (hslots n).trans ?_
    rw [(State.departConduit_apart hn).2.1]
    rfl
  · refine (hu.segments h).trans ?_
    rw [State.drawn_sum, State.drawn_sum]
    have hends : (fun n => decide (n ∈ allConduits) && State.ends
        (s.setPort p { s.port p with state := left, outcome := OutcomeRecord.initial, rotation := 23 }) p n) =
        fun n => (s.channel n).isSome && (s.departedUse p n).isNone := by
      funext n
      rw [decide_eq_true (mem_allConduits n)]
      rfl
    rw [hends]
    rfl
  · exact Acts.keeps (fun _ _ hl h => h.keeps_accounts hl) hacts ha
  · rw [hevents, if_pos rfl]
  · exact (Attention.without_queue _ p p).trans (if_pos rfl)
  · exact (Attention.without_pair _ p p q).trans (if_pos (.inl rfl))
  · exact (Attention.without_pair _ p q p).trans (if_pos (.inr rfl))
  · refine (Attention.without_pair _ p a b).trans ?_
    rw [if_neg (by simp [ha, hb]), hatt]
  · refine (Attention.without_queue _ p b).trans ?_
    rw [if_neg hb, hatt]
  · show ({ u.partition with proposal := none } : Partition) = _
    rw [hpar]
  · rw [hevents, if_neg hq]
    simp only [State.refusedRecords, State.abandonedRecords, hatt, hpar]
    simp only [List.append_assoc]
    rfl

end Departure

end Sys2Proof.Machine


/-! ### The port reset line

O33: what an assertion of the line ends first, what it leaves of the port, and the release. -/

namespace Sys2Proof.Machine

section ResetLine

variable {s t : State} {p : Port} {h : Handle}

/-! #### The transaction in flight -/

theorem State.abort_fill (hF : s.fillHandle? p = some h) :
    s.abort p = (s.freeDescriptor h).setPort p { (s.freeDescriptor h).port p with transaction := none } := by
  unfold State.abort
  rw [hF]
  rfl

theorem State.abort_transfer (hX : s.transferHandle? p = some h) :
    s.abort p = (s.claim .transferEnd h).setPort p
      { s.port p with outcome := { (s.port p).outcome with handle := none }, transaction := none } := by
  obtain ⟨x, hx, hph, -⟩ := State.transaction_of_transfer hX
  have hF : s.fillHandle? p = none := State.no_fill_of_phase hx (by simp [hph])
  have hport : (s.claim .transferEnd h).port p = s.port p :=
    State.port_congr (s.claim_surroundings .transferEnd h).ports p
  unfold State.abort State.endTransfer State.endTransaction
  simp only [hF, hX, State.setPort_port_self, State.setPort_setPort, hport]

theorem State.abort_idle (hF : s.fillHandle? p = none) (hX : s.transferHandle? p = none) :
    s.abort p = s.setPort p { s.port p with transaction := none } := by
  unfold State.abort State.endTransfer State.endTransaction
  simp only [hF, hX]

/-- The three ways in which a transaction in flight ends. -/
theorem State.abort_cases (s : State) (p : Port) :
    (∃ h, s.fillHandle? p = some h ∧
      s.abort p = (s.freeDescriptor h).setPort p { (s.freeDescriptor h).port p with transaction := none }) ∨
    (∃ h, s.abort p = (s.claim .transferEnd h).setPort p
      { s.port p with outcome := { (s.port p).outcome with handle := none }, transaction := none }) ∨
    s.abort p = s.setPort p { s.port p with transaction := none } := by
  cases hF : s.fillHandle? p with
  | some h => exact .inl ⟨h, rfl, State.abort_fill hF⟩
  | none =>
    cases hX : s.transferHandle? p with
    | some h => exact .inr (.inl ⟨h, State.abort_transfer hX⟩)
    | none => exact .inr (.inr (State.abort_idle hF hX))

/-- An abort leaves choices and queue of commands. -/
theorem State.abort_choices_pending (s : State) (p : Port) :
    (s.abort p).choices = s.choices ∧ (s.abort p).pending = s.pending := by
  obtain ⟨h, -, e⟩ | ⟨h, e⟩ | e := s.abort_cases p <;> rw [e]
  · have hsur := s.freeDescriptor_surroundings h
    exact ⟨hsur.choices, hsur.pending⟩
  · have hsur := s.claim_surroundings .transferEnd h
    exact ⟨hsur.choices, hsur.pending⟩
  · exact ⟨rfl, rfl⟩

/-- Who produces on a slot and who its members are outlasts an abort. -/
theorem State.abort_channel (s : State) (p : Port) {n : ConduitNo} {ch : Channel} (hc : (s.abort p).channel n = some ch) :
    ∃ ch', s.channel n = some ch' ∧ ch.producer = ch'.producer ∧ ch.members = ch'.members := by
  obtain ⟨h, -, e⟩ | ⟨h, e⟩ | e := s.abort_cases p <;> rw [e, State.setPort_channel] at hc
  · rw [State.freeDescriptor_channel] at hc
    obtain ⟨ch', hc', rfl⟩ := Option.map_eq_some_iff.1 hc
    exact ⟨ch', hc', rfl, rfl⟩
  · rw [State.claim_channel] at hc
    obtain ⟨ch', hc', rfl⟩ := Option.map_eq_some_iff.1 hc
    exact ⟨ch', hc', rfl, rfl⟩
  · exact ⟨ch, hc, rfl, rfl⟩

theorem ConduitLaw.abort_producerApart (hl : ConduitLaw s) (p : Port) {n : ConduitNo} {ch : Channel}
    (hc : (s.abort p).channel n = some ch) : ch.producer ∉ ch.memberPorts := by
  obtain ⟨ch', hc', hprod, hmem⟩ := s.abort_channel p hc
  rw [hprod, Channel.memberPorts, hmem]
  exact (hl n ch' hc').producerApart

theorem State.abort_segment_fill (hF : s.fillHandle? p = some h) : (s.abort p).segment h = none := by
  rw [State.abort_fill hF, State.setPort_segment, State.freeDescriptor_segment, if_pos rfl]

/-! #### The departure at an assertion -/

/-- The controller of the departed port is no part of what a departure leaves. -/
theorem DepartedTo.setPort {cause : DepartureCause} (hd : DepartedTo s t p cause) (c : PortController) :
    DepartedTo s (t.setPort p c) p cause where
  outOfConduits := hd.outOfConduits
  otherSlots := hd.otherSlots
  slots := hd.slots
  segments := hd.segments
  accounts := fun ha => (t.setPort_store p c).books.law (hd.accounts ha)
  freedBehind := hd.freedBehind
  noRecords := hd.noRecords
  noRequests := hd.noRequests
  otherRequests := hd.otherRequests
  noProposal := hd.noProposal
  peersTold := hd.peersTold
  otherPorts := fun q hq => (State.setPort_port_ne _ _ hq).trans (hd.otherPorts q hq)
  timeKept := hd.timeKept

/-- A FREE descriptor stays FREE at a departure. -/
theorem DepartedTo.segment_none {cause : DepartureCause} (hd : DepartedTo s t p cause) (hg : s.segment h = none) :
    t.segment h = none := by
  rw [hd.segments, hg]
  rfl

/-- A departure leaves choices and queue of commands. -/
theorem State.depart_choices_pending {T : Handle → Nat} {F : Port → Option Handle} (hr : Referred T F s)
    {left : PortState} (hleft : left ≠ .attached)
    (hprod : ∀ n ch, s.channel n = some ch → ch.producer ∉ ch.memberPorts) (cause : DepartureCause) :
    (s.depart p cause left).choices = s.choices ∧ (s.depart p cause left).pending = s.pending := by
  obtain ⟨u, hu, e⟩ := State.depart_eq hr hleft hprod (p := p) cause
  rw [e]
  exact ⟨hu.surroundings.choices, hu.surroundings.pending⟩

/-- The controller of a port after its transaction was aborted and it departed. -/
theorem State.abort_depart_port (s : State) (p : Port) (cause : DepartureCause) (left : PortState) :
    ((s.abort p).depart p cause left).port p =
      { state := left, resetAsserted := ((s.abort p).port p).resetAsserted, outcome := OutcomeRecord.initial,
        rotation := 23, transaction := none } := by
  rw [State.port, State.depart_ports, PerPort.get_set, if_pos rfl]
  simp only [s.abort_silent p]

/-- An assertion at an ATTACHED port (R11, R15, R140, R141, R143). -/
theorem exec_portResetAsserted_attached (ha : s.Attached p) (hc : ConduitLaw s) (hr : ReferenceLaw s) :
    ∃ t, exec (.portResetAsserted p) s = .next t ∧ DepartedTo (s.abort p) t p .reset ∧
      t.port p = { state := .held, resetAsserted := true, outcome := OutcomeRecord.initial, rotation := 23,
                   transaction := none } ∧
      (∀ h, s.fillHandle? p = some h → t.segment h = none) ∧
      t.choices = s.choices ∧ t.pending = s.pending := by
  have hrefs : Refers (s.abort p) := (hr.refers hc).abort p
  have hleft : PortState.held ≠ .attached := by decide
  have hprod : ∀ n ch, (s.abort p).channel n = some ch → ch.producer ∉ ch.memberPorts :=
    fun _ _ hch => hc.abort_producerApart p hch
  have hgone : DepartedTo (s.abort p) (((s.abort p).depart p .reset .held).setResetLine p true) p .reset :=
    (State.depart_departedTo hrefs hleft hprod .reset).setPort _
  have hkept := State.depart_choices_pending (p := p) hrefs hleft hprod .reset
  have habort := s.abort_choices_pending p
  refine ⟨((s.abort p).depart p .reset .held).setResetLine p true, ?_, hgone, ?_,
    fun h hF => hgone.segment_none (State.abort_segment_fill hF), hkept.1.trans habort.1, hkept.2.trans habort.2⟩
  · have hst : (s.port p).state = .attached := ha
    simp only [exec, execPortResetAsserted, hst]
  · rw [State.setResetLine, State.setPort_port_self, State.abort_depart_port]

/-! #### Ports that are not ATTACHED -/

/-- An assertion at a DETACHED port, which is in neither a fill nor a transfer (R134, R140). -/
theorem exec_portResetAsserted_detached (hp : PortLaw s) (hst : (s.port p).state = .detached) :
    exec (.portResetAsserted p) s = .next (s.setPort p
      { state := .held, resetAsserted := true, outcome := OutcomeRecord.initial, rotation := 23,
        transaction := none }) := by
  have hna : ¬ s.Attached p := fun ha => by
    have : (s.port p).state = .attached := ha
    rw [hst] at this
    cases this
  obtain ⟨hF, hX⟩ := hp.idleWhileDetached p hna
  simp only [exec, execPortResetAsserted, hst, State.abort_idle hF hX, State.enterHeld, State.setResetLine,
    State.setPort_port_self, State.setPort_setPort]

/-- An assertion at a port that shows STARTING (R140). -/
theorem exec_portResetAsserted_starting (hst : (s.port p).state = .held) (hshown : (s.shownState p).isSome = true) :
    exec (.portResetAsserted p) s = .next (s.setPort p { s.port p with
      resetAsserted := true
      outcome := OutcomeRecord.initial
      transaction := none }) := by
  obtain ⟨shown, hshows⟩ := Option.isSome_iff_exists.1 hshown
  simp only [exec, execPortResetAsserted, hst, hshows, State.endTransaction, State.resetOutcome, State.setResetLine,
    State.setPort_port_self, State.setPort_setPort]

theorem State.held_of_ignored (h : s.shownState p = none) : (s.port p).state = .held := by
  unfold State.shownState at h
  cases hst : (s.port p).state with
  | held => rfl
  | detached => simp [hst] at h
  | attached => simp [hst] at h

/-- An assertion at a port that ignores select (R141). -/
theorem exec_portResetAsserted_ignored (hshown : s.shownState p = none) :
    exec (.portResetAsserted p) s = .next (s.setPort p { s.port p with resetAsserted := true }) := by
  simp only [exec, execPortResetAsserted, State.held_of_ignored hshown, hshown, State.setResetLine]

/-! #### The release -/

theorem exec_portResetReleased_operation (hline : (s.port p).resetAsserted = true) (hrun : s.time.reset = .running) :
    exec (.portResetReleased p) s =
      .next (s.setPort p { s.port p with state := .detached, resetAsserted := false }) := by
  simp only [exec, execPortResetReleased, hline, hrun, if_true, State.setResetLine, State.setPort_port_self,
    State.setPort_setPort]

theorem exec_portResetReleased_before (hline : (s.port p).resetAsserted = true) (hrun : s.time.reset ≠ .running) :
    exec (.portResetReleased p) s = .next (s.setPort p { s.port p with resetAsserted := false }) := by
  cases hreset : s.time.reset with
  | running => exact absurd hreset hrun
  | startUp => simp only [exec, execPortResetReleased, hline, hreset, if_true, State.setResetLine]
  | held => simp only [exec, execPortResetReleased, hline, hreset, if_true, State.setResetLine]

theorem exec_portResetReleased_unasserted (hline : (s.port p).resetAsserted = false) :
    exec (.portResetReleased p) s = .next s := by
  simp only [exec, execPortResetReleased, hline, Bool.false_eq_true, if_false]

end ResetLine

end Sys2Proof.Machine

open Sys2Proof Sys2Proof.Machine in
/-- Settles O33: the transaction in flight ends, and an ATTACHED port then departs from its conduits one by one. -/
theorem portResetHoldsAndReleasesThePort : Obligations.PortResetHoldsAndReleasesThePort :=
  ⟨fun _ _ hp => ⟨exec_portResetAsserted_attached, exec_portResetAsserted_detached hp, exec_portResetAsserted_starting,
      exec_portResetAsserted_ignored, fun _ => State.abort_fill, fun _ => State.abort_transfer, State.abort_idle⟩,
    fun _ _ => ⟨exec_portResetReleased_operation, exec_portResetReleased_before, exec_portResetReleased_unasserted⟩⟩


/-! ### The law of one slot in use, and the uses an operation can put in its place

The law of a slot but for its drain check is kept by every operation inside a row; the drain check at the row's end
makes up the rest. Which ports are ATTACHED is a parameter, because a departure changes that ahead of the slots. -/

namespace Sys2Proof.Machine

section SlotForms

variable {A B : Port → Prop} {ch : Channel} {p : Port}

/-- The law of a slot in use as far as its stage has no part in it, where `A` says which ports are ATTACHED. -/
structure ChannelBody (A : Port → Prop) (ch : Channel) : Prop where
  nonempty : ch.members ≠ []
  ascending : (ch.memberPorts.map Port.toNat).Pairwise (· < ·)
  producerApart : ch.producer ∉ ch.memberPorts
  membersAttached : ∀ m ∈ ch.memberPorts, A m
  producerAttached : ch.producerPresent = true → A ch.producer
  requested : 1 ≤ ch.requestedWindow ∧ ch.requestedWindow ≤ 16 ∧ 1 ≤ ch.requestedSize ∧
    ch.requestedSize ≤ 1024 ∧ ch.holdLimit ≤ 1000
  limits : ∀ e ∈ ch.members, ∀ w z, e.answer = .accepted w z → 1 ≤ w ∧ w ≤ 16 ∧ 1 ≤ z ∧ z ≤ 1024
  kept : ∀ e ∈ ch.members, e.holds.length ≤ 4 ∧ e.lapsed.length ≤ 4

/-- The law of a slot in use but for its drain check. -/
structure ChannelForm (A : Port → Prop) (ch : Channel) : Prop extends ChannelBody A ch where
  offered : ∀ d, ch.stage = .offered d → ch.producerPresent = true ∧ (∃ e ∈ ch.members, e.answer = .pending) ∧
    ∀ e ∈ ch.members, e.queue = [] ∧ e.holds = [] ∧ e.lapsed = []
  answered : ∀ f, ch.stage.flow? = some f → ∀ e ∈ ch.members, e.answer ≠ .pending
  openPresent : ∀ f, ch.stage = .opened f → ch.producerPresent = true
  effective : ∀ f, ch.stage.flow? = some f → 1 ≤ f.window ∧ f.window ≤ 16 ∧ 1 ≤ f.maxSize ∧ f.maxSize ≤ 1024

/-- A DRAINING slot has something queued or held (R41). -/
def Channel.Settled (ch : Channel) : Prop := ∀ f, ch.stage = .draining f → ch.drained = false

theorem Stage.flow?_isSome_iff {st : Stage} : (∃ f, st.flow? = some f) ↔ ∀ d, st ≠ .offered d := by
  cases st <;> simp [Stage.flow?]

theorem channelLaw_iff {s : State} : ChannelLaw s ch ↔ ChannelForm s.Attached ch ∧ ch.Settled := by
  constructor
  · intro h
    have hne : ch.members ≠ [] := List.length_pos_iff.1 h.members.1
    exact ⟨⟨⟨hne, h.members.2, h.producerApart, h.membersAttached, h.producerAttached, h.requested, h.limits, h.kept⟩,
      h.offered, fun f hf => h.answered (Stage.flow?_isSome_iff.1 ⟨f, hf⟩), h.openPresent, h.effective⟩,
      h.drainingUndrained⟩
  · rintro ⟨h, hs⟩
    exact ⟨⟨List.length_pos_iff.2 h.nonempty, h.ascending⟩, h.producerApart, h.membersAttached, h.producerAttached,
      h.requested, h.limits, h.offered, fun hno => (Stage.flow?_isSome_iff.2 hno).elim h.answered,
      h.openPresent, hs, h.kept, h.effective⟩

theorem ChannelBody.distinct (h : ChannelBody A ch) : ch.memberPorts.Nodup :=
  List.Nodup.of_map _ (h.ascending.imp (fun hlt => Nat.ne_of_lt hlt))

/-- The ports that take part in a slot are all that the law asks of the ATTACHED ports. -/
theorem ChannelForm.attach (h : ChannelForm A ch) (hm : ∀ q ∈ ch.memberPorts, A q → B q)
    (hp : ch.producerPresent = true → A ch.producer → B ch.producer) : ChannelForm B ch :=
  { h with
    membersAttached := fun q hq => hm q hq (h.membersAttached q hq)
    producerAttached := fun hpp => hp hpp (h.producerAttached hpp) }

/-! #### Uses with other flow fields or another stage -/

theorem ChannelForm.mapFlow (h : ChannelForm A ch) {f : Flow → Flow}
    (hf : ∀ x, (f x).window = x.window ∧ (f x).maxSize = x.maxSize) : ChannelForm A (ch.mapFlow f) :=
  { h with
    offered := fun d hd => h.offered d (Stage.mapFlow_offered hd)
    answered := fun x hx => by
      rw [Channel.mapFlow_stage, Stage.flow?_mapFlow] at hx
      obtain ⟨y, hy, -⟩ := Option.map_eq_some_iff.1 hx
      exact h.answered y hy
    openPresent := fun x hx => by
      cases hst : ch.stage with
      | opened y => exact h.openPresent y hst
      | offered d => simp [hst, Stage.mapFlow] at hx
      | draining y => simp [hst, Stage.mapFlow] at hx
    effective := fun x hx => by
      rw [Channel.mapFlow_stage, Stage.flow?_mapFlow] at hx
      obtain ⟨y, hy, rfl⟩ := Option.map_eq_some_iff.1 hx
      rw [(hf y).1, (hf y).2]
      exact h.effective y hy }

theorem Channel.Settled.mapFlow (h : ch.Settled) (f : Flow → Flow) : (ch.mapFlow f).Settled := fun x hx => by
  cases hst : ch.stage with
  | draining y => exact h y hst
  | offered d => simp [hst, Stage.mapFlow] at hx
  | opened y => simp [hst, Stage.mapFlow] at hx

/-- An OPEN or DRAINING conduit goes DRAINING, with its producer or without (R39, R45). -/
theorem ChannelForm.draining (h : ChannelForm A ch) {f : Flow} (hf : ch.stage.flow? = some f) {present : Bool}
    (hp : present = true → ch.producerPresent = true) :
    ChannelForm A { ch with producerPresent := present, stage := .draining { f with windowLatch := false } } :=
  { h with
    producerAttached := fun hpp => h.producerAttached (hp hpp)
    offered := fun d hd => by cases hd
    answered := fun _ _ => h.answered f hf
    openPresent := fun x hx => by cases hx
    effective := fun x hx => by cases hx; exact h.effective f hf }

/-! #### Uses with other members -/

/-- The members' endpoints changed, each keeping its port and its answer. -/
theorem ChannelForm.mapMembers (h : ChannelForm A ch) {f : Endpoint → Endpoint}
    (hf : ∀ e, (f e).port = e.port ∧ (f e).answer = e.answer)
    (hk : ∀ e ∈ ch.members, (f e).holds.length ≤ 4 ∧ (f e).lapsed.length ≤ 4)
    (ho : ∀ d, ch.stage = .offered d → ∀ e ∈ ch.members, (f e).queue = [] ∧ (f e).holds = [] ∧ (f e).lapsed = []) :
    ChannelForm A { ch with members := ch.members.map f } := by
  have hports : ({ ch with members := ch.members.map f } : Channel).memberPorts = ch.memberPorts := by
    simp [Channel.memberPorts, hf]
  have back : ∀ e' ∈ ch.members.map f, ∃ e ∈ ch.members, f e = e' := fun e' => List.mem_map.1
  refine ⟨⟨by simpa using h.nonempty, by rw [hports]; exact h.ascending, by rw [hports]; exact h.producerApart,
    by rw [hports]; exact h.membersAttached, h.producerAttached, h.requested, fun e' he' => ?_, fun e' he' => ?_⟩,
    fun d hd => ⟨(h.offered d hd).1, ?_, fun e' he' => ?_⟩, fun x hx e' he' => ?_, h.openPresent, h.effective⟩
  · obtain ⟨e, he, rfl⟩ := back e' he'
    rw [(hf e).2]
    exact h.limits e he
  · obtain ⟨e, he, rfl⟩ := back e' he'
    exact hk e he
  · obtain ⟨e, he, hpend⟩ := (h.offered d hd).2.1
    exact ⟨f e, List.mem_map_of_mem he, by rw [(hf e).2, hpend]⟩
  · obtain ⟨e, he, rfl⟩ := back e' he'
    exact ho d hd e he
  · obtain ⟨e, he, rfl⟩ := back e' he'
    rw [(hf e).2]
    exact h.answered x hx e he

/-- One member's endpoint changed in what it queues, holds or has let lapse. -/
theorem ChannelForm.updateEndpoint (h : ChannelForm A ch) {f : Endpoint → Endpoint}
    (hf : ∀ e, (f e).port = e.port ∧ (f e).answer = e.answer)
    (hk : ∀ e ∈ ch.members, e.port = p → (f e).holds.length ≤ 4 ∧ (f e).lapsed.length ≤ 4)
    (ho : ∀ d, ch.stage = .offered d → ∀ e ∈ ch.members, e.port = p →
      (f e).queue = [] ∧ (f e).holds = [] ∧ (f e).lapsed = []) : ChannelForm A (ch.updateEndpoint p f) := by
  refine h.mapMembers (f := fun e => if e.port = p then f e else e) (fun e => ?_) (fun e he => ?_) (fun d hd e he => ?_)
  · split
    · exact hf e
    · exact ⟨rfl, rfl⟩
  · split
    · rename_i hp; exact hk e he hp
    · exact h.kept e he
  · split
    · rename_i hp; exact ho d hd e he hp
    · exact (h.offered d hd).2.2 e he

/-- A member removed from an OPEN or DRAINING conduit that has another one (R43). -/
theorem ChannelForm.without (h : ChannelForm A ch) {f : Flow} (hf : ch.stage.flow? = some f)
    (hother : ∃ e ∈ ch.members, e.port ≠ p) : ChannelForm A (ch.without p) := by
  have hsub : ∀ e ∈ (ch.without p).members, e ∈ ch.members := fun e he => (List.mem_filter.1 he).1
  have hports : ∀ q ∈ (ch.without p).memberPorts, q ∈ ch.memberPorts := fun q hq => (Channel.mem_without_ports.1 hq).1
  obtain ⟨e, he, hne⟩ := hother
  have hmem : e ∈ (ch.without p).members := List.mem_filter.2 ⟨he, by simpa using hne⟩
  exact
    { h with
      nonempty := List.ne_nil_of_mem hmem
      ascending := h.ascending.sublist ((List.filter_sublist.map _).map _)
      producerApart := fun hm => h.producerApart (hports _ hm)
      membersAttached := fun q hq => h.membersAttached q (hports q hq)
      limits := fun e he => h.limits e (hsub e he)
      offered := fun d hd => absurd hd (Stage.flow?_isSome_iff.1 ⟨f, hf⟩ d)
      answered := fun x hx e he => h.answered x hx e (hsub e he)
      kept := fun e he => h.kept e (hsub e he) }

/-! #### Effective values -/

/-- The window limit of an answer that accepts (R25). -/
def Answered.windowLimit? : Answered → Option Nat
  | .accepted w _ => some w
  | .pending => none

/-- The size limit of an answer that accepts (R25). -/
def Answered.sizeLimit? : Answered → Option Nat
  | .accepted _ z => some z
  | .pending => none

theorem Answered.windowLimit?_eq_some {a : Answered} {w : Nat} : a.windowLimit? = some w ↔ ∃ z, a = .accepted w z := by
  cases a <;> simp [Answered.windowLimit?]

theorem Answered.sizeLimit?_eq_some {a : Answered} {z : Nat} : a.sizeLimit? = some z ↔ ∃ w, a = .accepted w z := by
  cases a <;> simp [Answered.sizeLimit?]

/-- The effective window is the minimum of a list (R35). -/
theorem Channel.smallestWindow_min (ch : Channel) :
    (ch.requestedWindow :: ch.members.filterMap (fun e => e.answer.windowLimit?)).min? = some ch.smallestWindow := by
  rw [List.min?_cons', List.foldl_filterMap, Channel.smallestWindow]
  congr 2
  funext w e
  cases e.answer <;> rfl

/-- The effective maximum size is the minimum of a list (R35). -/
theorem Channel.smallestSize_min (ch : Channel) :
    (ch.requestedSize :: ch.members.filterMap (fun e => e.answer.sizeLimit?)).min? = some ch.smallestSize := by
  rw [List.min?_cons', List.foldl_filterMap, Channel.smallestSize]
  congr 2
  funext w e
  cases e.answer <;> rfl

/-- The minimum of a value and of what some members' answers give: a lower bound, and attained. -/
theorem least_of_answers {start least : Nat} {l : List Endpoint} {limit : Answered → Option Nat}
    (h : (start :: l.filterMap (fun e => limit e.answer)).min? = some least) :
    least ≤ start ∧ (∀ e ∈ l, ∀ k, limit e.answer = some k → least ≤ k) ∧
      (least = start ∨ ∃ e ∈ l, limit e.answer = some least) := by
  obtain ⟨hmem, hle⟩ := List.min?_eq_some_iff.1 h
  refine ⟨hle _ List.mem_cons_self, fun e he k hk =>
    hle k (List.mem_cons_of_mem _ (List.mem_filterMap.2 ⟨e, he, hk⟩)), ?_⟩
  exact (List.mem_cons.1 hmem).imp_right List.mem_filterMap.1

/-- The flow fields of a conduit that opens are in range where the offer and its answers are (R30, R33, R35). -/
theorem ChannelBody.openingFlow_range (h : ChannelBody A ch) :
    1 ≤ ch.openingFlow.window ∧ ch.openingFlow.window ≤ 16 ∧ 1 ≤ ch.openingFlow.maxSize ∧
      ch.openingFlow.maxSize ≤ 1024 := by
  obtain ⟨hw1, hw16, hz1, hz1024, -⟩ := h.requested
  obtain ⟨hw, -, hwin⟩ := least_of_answers ch.smallestWindow_min
  obtain ⟨hz, -, hsize⟩ := least_of_answers ch.smallestSize_min
  simp only [Channel.openingFlow]
  refine ⟨?_, hw.trans hw16, ?_, hz.trans hz1024⟩
  · obtain heq | ⟨e, he, ha⟩ := hwin
    · rwa [heq]
    · obtain ⟨z, ha⟩ := Answered.windowLimit?_eq_some.1 ha
      exact (h.limits e he _ z ha).1
  · obtain heq | ⟨e, he, ha⟩ := hsize
    · rwa [heq]
    · obtain ⟨w, ha⟩ := Answered.sizeLimit?_eq_some.1 ha
      exact (h.limits e he w _ ha).2.2.1

/-! #### Answers -/

/-- A member's acceptance recorded in a slot (R34). -/
def Channel.accepting (ch : Channel) (p : Port) (w z : Nat) : Channel :=
  ch.updateEndpoint p (fun e => { e with answer := .accepted w z })

theorem Channel.accepting_ports (ch : Channel) (p : Port) (w z : Nat) :
    (ch.accepting p w z).memberPorts = ch.memberPorts := Channel.updateEndpoint_ports (fun _ => rfl)

/-- A member of a slot with an acceptance recorded: it has its entries still, and its answer or the one recorded. -/
theorem Channel.mem_accepting {w z : Nat} {e' : Endpoint} (h : e' ∈ (ch.accepting p w z).members) :
    ∃ e ∈ ch.members, e'.queue = e.queue ∧ e'.holds = e.holds ∧ e'.lapsed = e.lapsed ∧
      (e'.answer = .accepted w z ∨ e'.answer = e.answer) := by
  obtain ⟨e, he, rfl⟩ := List.mem_map.1 h
  refine ⟨e, he, ?_⟩
  split
  · exact ⟨rfl, rfl, rfl, .inl rfl⟩
  · exact ⟨rfl, rfl, rfl, .inr rfl⟩

theorem ChannelBody.accepting (h : ChannelBody A ch) {w z : Nat} (hw : 1 ≤ w ∧ w ≤ 16) (hz : 1 ≤ z ∧ z ≤ 1024) :
    ChannelBody A (ch.accepting p w z) := by
  have hports := ch.accepting_ports p w z
  refine ⟨by simpa [Channel.accepting, Channel.updateEndpoint] using h.nonempty, hports ▸ h.ascending,
    fun hm => h.producerApart (hports ▸ hm), hports ▸ h.membersAttached, h.producerAttached, h.requested,
    fun e' he' a b hab => ?_, fun e' he' => ?_⟩
  · obtain ⟨e, he, -, -, -, ha | ha⟩ := Channel.mem_accepting he'
    · rw [hab] at ha
      cases ha
      exact ⟨hw.1, hw.2, hz⟩
    · exact h.limits e he a b (ha ▸ hab)
  · obtain ⟨e, he, -, hh, hl, -⟩ := Channel.mem_accepting he'
    rw [hh, hl]
    exact h.kept e he

/-- An acceptance while another answer is PENDING (R34). -/
theorem ChannelForm.accepting (h : ChannelForm A ch) {d : Tick} (hd : ch.stage = .offered d) {w z : Nat}
    (hw : 1 ≤ w ∧ w ≤ 16) (hz : 1 ≤ z ∧ z ≤ 1024)
    (hpending : ∃ e ∈ (ch.accepting p w z).members, e.answer = .pending) : ChannelForm A (ch.accepting p w z) := by
  have hst : (ch.accepting p w z).stage = .offered d := hd
  refine ⟨h.toChannelBody.accepting hw hz, fun x hx => ⟨(h.offered d hd).1, hpending, fun e' he' => ?_⟩,
    fun f hf => ?_, fun f hf => ?_, fun f hf => ?_⟩
  · obtain ⟨e, he, hq, hh, hl, -⟩ := Channel.mem_accepting he'
    rw [hq, hh, hl]
    exact (h.offered d hd).2.2 e he
  · rw [hst] at hf; cases hf
  · rw [hst] at hf; cases hf
  · rw [hst] at hf; cases hf

/-- The last acceptance opens the conduit with its effective values (R35). -/
theorem ChannelForm.opening (h : ChannelForm A ch) {d : Tick} (hd : ch.stage = .offered d) {w z : Nat}
    (hw : 1 ≤ w ∧ w ≤ 16) (hz : 1 ≤ z ∧ z ≤ 1024)
    (hall : ∀ e ∈ (ch.accepting p w z).members, e.answer ≠ .pending) :
    ChannelForm A { ch.accepting p w z with stage := .opened (ch.accepting p w z).openingFlow } := by
  have body : ChannelBody A (ch.accepting p w z) := h.toChannelBody.accepting hw hz
  exact ⟨⟨body.nonempty, body.ascending, body.producerApart, body.membersAttached, body.producerAttached,
      body.requested, body.limits, body.kept⟩, fun x hx => (by cases hx), fun _ _ => hall,
    fun _ _ => (h.offered d hd).1, fun f hf => by cases hf; exact body.openingFlow_range⟩

end SlotForms

end Sys2Proof.Machine

/-! ### What an operation carries on

Inside a row the law of the slots is whole but for at most one slot, whose drain check or end is still to come. Beside
that, every operation but an offer carries the uses of the slots on: no deadline is placed but anew, and no port takes
part in a slot that it took no part in before. -/

namespace Sys2Proof.Machine

section Carrying

variable {A : Port → Prop} {s t u : State} {n : ConduitNo} {p : Port} {ch ch' : Channel}

/-- What a row still owes the slots at some point inside it: a drain check, or the end of the conduit. -/
inductive Owed where
  | nothing
  | check (n : ConduitNo)
  | ending (n : ConduitNo)

/-- The law of the slots as far as nothing is owed, where `A` says which ports are ATTACHED. -/
structure Lawful (A : Port → Prop) (o : Owed) (s : State) : Prop where
  form : ∀ n ch, s.channel n = some ch → o ≠ .ending n → ChannelForm A ch
  settled : ∀ n ch, s.channel n = some ch → o ≠ .ending n → o ≠ .check n → ch.Settled

variable {o o' : Owed}

theorem conduitLaw_iff : ConduitLaw s ↔ Lawful s.Attached .nothing s :=
  ⟨fun h => ⟨fun n ch hc _ => (channelLaw_iff.1 (h n ch hc)).1, fun n ch hc _ _ => (channelLaw_iff.1 (h n ch hc)).2⟩,
    fun h n ch hc => channelLaw_iff.2 ⟨h.form n ch hc nofun, h.settled n ch hc nofun nofun⟩⟩

/-- Whatever is owed, a state that owes nothing satisfies. -/
theorem Lawful.owe (h : Lawful A .nothing s) (o : Owed) : Lawful A o s :=
  ⟨fun n ch hc _ => h.form n ch hc nofun, fun n ch hc _ _ => h.settled n ch hc nofun nofun⟩

/-- A slot put into another use, with the form of that use unless the slot is to end, and its drain check made or
owed. -/
theorem Lawful.setChannel (h : Lawful A o s) {x : Option Channel}
    (hother : ∀ m, m ≠ n → (o' ≠ .ending m → o ≠ .ending m) ∧ (o' ≠ .check m → o ≠ .check m))
    (hx : ∀ ch', x = some ch' → (o' ≠ .ending n → ChannelForm A ch') ∧
      (o' ≠ .ending n → o' ≠ .check n → ch'.Settled)) : Lawful A o' (s.setChannel n x) where
  form m c hc hm := by
    rw [State.setChannel_channel] at hc
    split at hc
    · rename_i e; subst e; exact (hx c hc).1 hm
    · rename_i e; exact h.form m c hc ((hother m e).1 hm)
  settled m c hc hm hm' := by
    rw [State.setChannel_channel] at hc
    split at hc
    · rename_i e; subst e; exact (hx c hc).2 hm hm'
    · rename_i e; exact h.settled m c hc ((hother m e).1 hm) ((hother m e).2 hm')

/-- How the use of a slot goes on while it stays in use, at this count of the interval counter: its participants are
among those it had, and a deadline it has placed is one it had or a new hold's (R75). -/
structure Continues (counter : Tick) (ch ch' : Channel) : Prop where
  limit : ch'.holdLimit = ch.holdLimit
  producer : ch'.producer = ch.producer
  present : ch'.producerPresent = true → ch.producerPresent = true
  ports : ∀ q ∈ ch'.memberPorts, q ∈ ch.memberPorts
  offered : ∀ d, ch'.stage = .offered d → ch.stage = .offered d
  holds : ∀ e' ∈ ch'.members, ∀ x ∈ e'.holds, (∃ e ∈ ch.members, e.port = e'.port ∧ x ∈ e.holds) ∨
    ∀ d, x.deadline = some d → d = counter + BitVec.ofNat 32 (ch.holdLimit + 1)

/-- The interval counter and the queue stay, and the proposal has the deadline it had or a new one's (R124). -/
structure Clocked (s t : State) : Prop where
  counter : t.time.counter = s.time.counter
  pending : t.pending = s.pending
  proposal : ∀ pr', t.partition.proposal = some pr' →
    (∃ pr, s.partition.proposal = some pr ∧ pr'.deadline = pr.deadline) ∨ pr'.deadline = s.deadlineAfter 250

/-- Clocked, and no port leaves ATTACHED. -/
structure Aside (s t : State) : Prop extends Clocked s t where
  attached : ∀ q, s.Attached q → t.Attached q

/-- The uses of the slots go on or end, their generations stay, and no deadline is placed but anew. -/
structure Continued (s t : State) : Prop extends Clocked s t where
  generations : ∀ n, (t.conduit n).generation = (s.conduit n).generation
  slots : ∀ n ch', t.channel n = some ch' → ∃ ch, s.channel n = some ch ∧ Continues s.time.counter ch ch'

/-- The uses of the slots go on, no port leaves ATTACHED, and the law of the slots is kept but for what is owed. -/
structure Carries (A : Port → Prop) (o : Owed) (s t : State) : Prop extends Continued s t where
  attached : ∀ q, s.Attached q → t.Attached q
  law : Lawful A .nothing s → Lawful A o t

theorem Continues.refl (c : Tick) (ch : Channel) : Continues c ch ch :=
  ⟨rfl, rfl, id, fun _ h => h, fun _ h => h, fun e he _ hx => .inl ⟨e, he, rfl, hx⟩⟩

theorem Continues.trans {c : Tick} {x y z : Channel} (a : Continues c x y) (b : Continues c y z) : Continues c x z where
  limit := b.limit.trans a.limit
  producer := b.producer.trans a.producer
  present h := a.present (b.present h)
  ports q hq := a.ports q (b.ports q hq)
  offered d hd := a.offered d (b.offered d hd)
  holds e'' he'' w hw := by
    obtain ⟨e', he', hp', hw'⟩ | hnew := b.holds e'' he'' w hw
    · exact (a.holds e' he' w hw').imp_left fun ⟨e, he, hp, hwe⟩ => ⟨e, he, hp.trans hp', hwe⟩
    · exact .inr (a.limit ▸ hnew)

theorem Clocked.refl (s : State) : Clocked s s := ⟨rfl, rfl, fun pr h => .inl ⟨pr, h, rfl⟩⟩

theorem Clocked.trans (a : Clocked s t) (b : Clocked t u) : Clocked s u where
  counter := b.counter.trans a.counter
  pending := b.pending.trans a.pending
  proposal pr'' h := by
    obtain ⟨pr', h', he'⟩ | hnew := b.proposal pr'' h
    · rw [he']; exact a.proposal pr' h'
    · exact .inr (hnew.trans (by simp only [State.deadlineAfter, a.counter]))

theorem Aside.refl (s : State) : Aside s s := ⟨.refl s, fun _ h => h⟩

theorem Aside.trans (a : Aside s t) (b : Aside t u) : Aside s u :=
  ⟨a.toClocked.trans b.toClocked, fun q h => b.attached q (a.attached q h)⟩

theorem Continued.refl (s : State) : Continued s s :=
  ⟨.refl s, fun _ => rfl, fun _ ch h => ⟨ch, h, .refl _ ch⟩⟩

theorem Continued.trans (a : Continued s t) (b : Continued t u) : Continued s u where
  toClocked := a.toClocked.trans b.toClocked
  generations n := (b.generations n).trans (a.generations n)
  slots n ch'' h := by
    obtain ⟨ch', h', hk'⟩ := b.slots n ch'' h
    obtain ⟨ch, hc, hk⟩ := a.slots n ch' h'
    exact ⟨ch, hc, hk.trans (a.counter ▸ hk')⟩

/-- Surroundings that stay as they are. -/
theorem SameSurroundings.aside (h : SameSurroundings s t) : Aside s t where
  counter := congrArg TimeBase.counter h.time
  pending := h.pending
  attached q hq := by rw [State.Attached, State.port_congr h.ports]; exact hq
  proposal pr hp := .inl ⟨pr, h.partition ▸ hp, rfl⟩

theorem Carries.refl (A : Port → Prop) (s : State) : Carries A .nothing s s := ⟨.refl s, fun _ h => h, id⟩

theorem Carries.trans (a : Carries A .nothing s t) (b : Carries A o t u) : Carries A o s u :=
  ⟨a.toContinued.trans b.toContinued, fun q h => b.attached q (a.attached q h), fun h => b.law (a.law h)⟩

theorem Carries.owe (h : Carries A .nothing s t) (o : Owed) : Carries A o s t :=
  ⟨h.toContinued, h.attached, fun hl => (h.law hl).owe o⟩

/-! #### Flow fields and what is outside the slots -/

/-- Flow fields alone changed, their effective values kept. -/
theorem Carries.flows (h : Carries A o s t) (ha : Aside t u)
    (hg : ∀ m, (u.conduit m).generation = (t.conduit m).generation) {f : ConduitNo → Flow → Flow}
    (hf : ∀ m x, (f m x).window = x.window ∧ (f m x).maxSize = x.maxSize)
    (hch : ∀ m, u.channel m = (t.channel m).map (Channel.mapFlow (f m))) : Carries A o s u := by
  have back : ∀ m ch', u.channel m = some ch' → ∃ ch, t.channel m = some ch ∧ ch.mapFlow (f m) = ch' :=
      fun m ch' h' => by
    rw [hch] at h'
    exact Option.map_eq_some_iff.1 h'
  refine ⟨h.toContinued.trans ⟨ha.toClocked, hg, fun m ch' h' => ?_⟩, fun q hq => ha.attached q (h.attached q hq),
    fun hl => ⟨fun m ch' h' hm => ?_, fun m ch' h' hm hm' => ?_⟩⟩
  · obtain ⟨ch, hc, rfl⟩ := back m ch' h'
    exact ⟨ch, hc, rfl, rfl, id, fun _ hq => hq, fun _ hd => Stage.mapFlow_offered hd,
      fun e he _ hx => .inl ⟨e, he, rfl, hx⟩⟩
  · obtain ⟨ch, hc, rfl⟩ := back m ch' h'
    exact ((h.law hl).form m ch hc hm).mapFlow (hf m)
  · obtain ⟨ch, hc, rfl⟩ := back m ch' h'
    exact ((h.law hl).settled m ch hc hm hm').mapFlow (f m)

/-- The slots left as they are. -/
theorem Carries.aside (h : Carries A o s t) (ha : Aside t u) (hc : u.conduits = t.conduits) : Carries A o s u := by
  refine h.flows ha (fun m => by rw [State.conduit, hc]; rfl) (f := fun _ x => x) (fun _ _ => ⟨rfl, rfl⟩) (fun m => ?_)
  rw [State.channel_ext hc]
  cases t.channel m with
  | none => rfl
  | some ch => rw [Option.map_some, Channel.mapFlow_eq_self (fun _ _ => rfl)]

theorem Carries.appendEvents (h : Carries A o s t) (ps : List Port) (e : Event) : Carries A o s (t.appendEvents ps e) :=
  h.aside (t.appendEvents_surroundings ps e).aside (t.appendEvents_conduits ps e)

theorem Carries.appendEvent (h : Carries A o s t) (p : Port) (e : Event) : Carries A o s (t.appendEvent p e) :=
  h.aside (t.appendEvent_surroundings p e).aside (t.appendEvent_conduits p e)

/-- A port controller replaced whose port stays ATTACHED if it was. -/
theorem State.setPort_aside {c : PortController} (hc : s.Attached p → c.state = .attached) :
    Aside s (s.setPort p c) := by
  refine ⟨⟨rfl, rfl, fun pr hp => .inl ⟨pr, hp, rfl⟩⟩, fun q hq => ?_⟩
  rw [State.Attached, State.setPort_port]
  split
  · rename_i e; subst e; exact hc hq
  · exact hq

theorem Carries.setPort (h : Carries A o s t) {c : PortController} (hc : t.Attached p → c.state = .attached) :
    Carries A o s (t.setPort p c) := h.aside (State.setPort_aside hc) rfl

theorem State.updateChannel_generation (s : State) (n m : ConduitNo) (f : Channel → Channel) :
    ((s.updateChannel n f).conduit m).generation = (s.conduit m).generation := by
  unfold State.updateChannel
  split
  · rfl
  · by_cases hm : m = n
    · subst hm; simp
    · simp [hm]

theorem State.notify?_generation (s : State) (o : Option ConduitNo) (m : ConduitNo) :
    ((s.notify? o).conduit m).generation = (s.conduit m).generation := by
  cases o with
  | none => rfl
  | some n => exact s.updateChannel_generation n m _

theorem State.claim_generation (s : State) (c : Claim) (h : Handle) (m : ConduitNo) :
    ((s.claim c h).conduit m).generation = (s.conduit m).generation := by
  rw [State.claim_eq, State.notify?_generation]
  rfl

theorem State.freeDescriptor_generation (s : State) (h : Handle) (m : ConduitNo) :
    ((s.freeDescriptor h).conduit m).generation = (s.conduit m).generation := by
  cases hg : s.segment h with
  | none => rw [s.freeDescriptor_of_none h hg]
  | some g => rw [s.freeDescriptor_of_some h hg, State.notify?_generation]; rfl

theorem Carries.claim (h : Carries A o s t) (c : Claim) (k : Handle) : Carries A o s (t.claim c k) :=
  h.flows (t.claim_surroundings c k).aside (t.claim_generation c k) (fun _ _ => by split <;> exact ⟨rfl, rfl⟩)
    (fun m => t.claim_channel k m c)

theorem Carries.claims (h : Carries A o s t) (c : Claim) (hs : List Handle) : Carries A o s (t.claims c hs) := by
  unfold State.claims
  induction hs generalizing t with
  | nil => exact h
  | cons k hs ih => exact ih (h.claim c k)

theorem Carries.freeDescriptor (h : Carries A o s t) (k : Handle) : Carries A o s (t.freeDescriptor k) :=
  h.flows (t.freeDescriptor_surroundings k).aside (t.freeDescriptor_generation k)
    (fun _ _ => by split <;> exact ⟨rfl, rfl⟩) (fun m => t.freeDescriptor_channel k m)

theorem Carries.updateFlow (h : Carries A o s t) (n : ConduitNo) {f : Flow → Flow}
    (hf : ∀ x, (f x).window = x.window ∧ (f x).maxSize = x.maxSize) :
    Carries A o s (t.updateChannel n (Channel.mapFlow f)) := by
  refine h.flows (t.updateChannel_surroundings n _).aside (t.updateChannel_generation n · _)
    (f := fun m x => if m = n then f x else x) (fun m x => ?_) (fun m => ?_)
  · split
    · exact hf x
    · exact ⟨rfl, rfl⟩
  · rw [State.updateChannel_channel]
    by_cases hm : m = n
    · simp [hm]
    · cases t.channel m with
      | none => simp [hm]
      | some ch => simp [hm, Channel.mapFlow_eq_self]

/-! #### A slot in another use -/

theorem State.setChannel_generation (s : State) (n m : ConduitNo) (x : Option Channel) :
    ((s.setChannel n x).conduit m).generation = (s.conduit m).generation := by
  by_cases hm : m = n
  · subst hm; simp
  · simp [hm]

theorem Continued.setChannel (hc : t.channel n = some ch) (hk : Continues t.time.counter ch ch') :
    Continued t (t.setChannel n (some ch')) where
  toClocked := (t.setChannel_surroundings n _).aside.toClocked
  generations m := t.setChannel_generation n m _
  slots m x hx := by
    rw [State.setChannel_channel] at hx
    split at hx
    · rename_i e; subst e; cases hx; exact ⟨ch, hc, hk⟩
    · exact ⟨x, hx, .refl _ x⟩

/-- The use of a slot continued, its drain check made. -/
theorem Carries.use (h : Carries A .nothing s t) (hc : t.channel n = some ch) (hk : Continues t.time.counter ch ch')
    (hf : ChannelForm A ch → ChannelForm A ch') (hs : ch.Settled → ch'.Settled) :
    Carries A .nothing s (t.setChannel n (some ch')) :=
  ⟨h.toContinued.trans (.setChannel hc hk), h.attached, fun hl =>
    (h.law hl).setChannel (fun _ _ => ⟨id, id⟩) (fun x hx => by
    cases hx
    exact ⟨fun hm => hf ((h.law hl).form n ch hc hm), fun hm hm' => hs ((h.law hl).settled n ch hc hm hm')⟩)⟩

/-- The use of a slot continued, its drain check owed. -/
theorem Carries.useOwing (h : Carries A (.check n) s t) (hc : t.channel n = some ch)
    (hk : Continues t.time.counter ch ch') (hf : ChannelForm A ch → ChannelForm A ch') :
    Carries A (.check n) s (t.setChannel n (some ch')) :=
  ⟨h.toContinued.trans (.setChannel hc hk), h.attached, fun hl =>
    (h.law hl).setChannel (fun _ _ => ⟨id, id⟩) (fun x hx => by
    cases hx
    exact ⟨fun hm => hf ((h.law hl).form n ch hc hm), fun _ hm => absurd rfl hm⟩)⟩

/-- The use of a slot continued that is to end. -/
theorem Carries.useEnding (h : Carries A .nothing s t) (hc : t.channel n = some ch)
    (hk : Continues t.time.counter ch ch') : Carries A (.ending n) s (t.setChannel n (some ch')) :=
  ⟨h.toContinued.trans (.setChannel hc hk), h.attached, fun hl =>
    ((h.law hl).owe (.ending n)).setChannel (fun _ _ => ⟨id, id⟩) (fun _ _ =>
      ⟨fun hm => absurd rfl hm, fun hm => absurd rfl hm⟩)⟩

/-! #### Ends of a conduit -/

theorem Carries.teardown (h : Carries A (.ending n) s t) : Carries A .nothing s (t.teardown n) := by
  refine ⟨h.toContinued.trans ⟨(t.teardown_surroundings n).aside.toClocked, fun m => ?_, fun m x hx => ?_⟩,
    h.attached, fun hl => ?_⟩
  · exact ({ t with pool := t.pool.detach n } : State).setChannel_generation n m none
  · rw [State.teardown_channel] at hx
    split at hx
    · cases hx
    · exact ⟨x, hx, .refl _ x⟩
  · have hpool : Lawful A (.ending n) ({ t with pool := t.pool.detach n } : State) :=
      ⟨(h.law hl).form, (h.law hl).settled⟩
    refine hpool.setChannel (fun m hm => ⟨fun _ e => ?_, fun _ => nofun⟩) (fun _ hx => by cases hx)
    cases e
    exact hm rfl

theorem Carries.failOffer (h : Carries A .nothing s t) (n : ConduitNo) (r : OfferResult) (ps : List Port) :
    Carries A .nothing s (t.failOffer n r ps) :=
  ((h.owe (.ending n)).appendEvents ps _).teardown

theorem Carries.endConduit (h : Carries A (.ending n) s t) (r : EndReason) :
    Carries A .nothing s (t.endConduit n r) := by
  unfold State.endConduit
  split
  · rename_i hc
    have hne : ∀ m c, t.channel m = some c → Owed.ending n ≠ .ending m := fun m c hc' e => by
      cases e
      rw [hc] at hc'
      cases hc'
    exact ⟨h.toContinued, h.attached, fun hl => ⟨fun m c hc' _ => (h.law hl).form m c hc' (hne m c hc'),
      fun m c hc' _ _ => (h.law hl).settled m c hc' (hne m c hc') nofun⟩⟩
  · exact (h.appendEvents _ _).teardown

/-- A drain check that was owed, made (R41). -/
theorem Carries.drainCheck (h : Carries A (.check n) s t) : Carries A .nothing s (t.drainCheck n) := by
  have settle : (∀ ch, t.channel n = some ch → ch.Settled) → Carries A .nothing s t := fun hs =>
    ⟨h.toContinued, h.attached, fun hl => ⟨fun m c hc _ => (h.law hl).form m c hc nofun, fun m c hc _ _ => by
      by_cases hm : m = n
      · subst hm; exact hs c hc
      · exact (h.law hl).settled m c hc nofun (fun e => hm (by cases e; rfl))⟩⟩
  unfold State.drainCheck
  split
  · rename_i hc
    exact settle (fun ch hc' => by rw [hc] at hc'; cases hc')
  · rename_i ch hc
    split
    · rename_i f hst
      split
      · have : Carries A (.ending n) s t := ⟨h.toContinued, h.attached, fun hl => ⟨fun m c hc' _ =>
          (h.law hl).form m c hc' nofun, fun m c hc' hm _ =>
          (h.law hl).settled m c hc' nofun (fun e => hm (by cases e; rfl))⟩⟩
        exact this.endConduit _
      · rename_i hd
        exact settle (fun c hc' f _ => by rw [hc] at hc'; cases hc'; simpa using hd)
    · rename_i hst
      exact settle (fun c hc' f hst' => by rw [hc] at hc'; cases hc'; exact absurd hst' (hst f))

end Carrying

end Sys2Proof.Machine

/-! ### What the operations of a row carry on -/

namespace Sys2Proof.Machine

section CarryingOperations

variable {A : Port → Prop} {o : Owed} {s t u : State} {n : ConduitNo} {p : Port} {ch : Channel}

/-! #### Members -/

/-- One member's endpoint changed; its holds are among those it had. -/
theorem Continues.updateEndpoint (c : Tick) (ch : Channel) {f : Endpoint → Endpoint} (hf : ∀ e, (f e).port = e.port)
    (hh : ∀ e ∈ ch.members, ∀ x ∈ (f e).holds, x ∈ e.holds ∨
      ∀ d, x.deadline = some d → d = c + BitVec.ofNat 32 (ch.holdLimit + 1)) :
    Continues c ch (ch.updateEndpoint p f) where
  limit := rfl
  producer := rfl
  present := id
  ports := by rw [Channel.updateEndpoint_ports hf]; exact fun _ h => h
  offered _ h := h
  holds e' he' x hx := by
    obtain ⟨e, he, rfl⟩ := List.mem_map.1 he'
    split at hx
    · rename_i hp
      rw [if_pos hp]
      exact (hh e he x hx).imp_left fun hx => ⟨e, he, (hf e).symm, hx⟩
    · rename_i hp
      rw [if_neg hp]
      exact .inl ⟨e, he, rfl, hx⟩

/-- A member removed. -/
theorem Continues.without (c : Tick) (ch : Channel) (p : Port) : Continues c ch (ch.without p) where
  limit := rfl
  producer := rfl
  present := id
  ports _ hq := (Channel.mem_without_ports.1 hq).1
  offered _ h := h
  holds e he _ hx := .inl ⟨e, List.mem_of_mem_filter he, rfl, hx⟩

/-- An OPEN or DRAINING conduit made DRAINING. -/
theorem Continues.draining (c : Tick) (ch : Channel) (f : Flow) {present : Bool}
    (hp : present = true → ch.producerPresent = true) :
    Continues c ch { ch with producerPresent := present, stage := .draining f } :=
  ⟨rfl, rfl, hp, fun _ h => h, nofun, fun e he _ hx => .inl ⟨e, he, rfl, hx⟩⟩

theorem Channel.drain_eq {f : Flow} (hf : ch.stage.flow? = some f) :
    ch.drain = { ch with stage := .draining { f with windowLatch := false } } := by
  unfold Channel.drain
  cases hst : ch.stage <;> simp only [hst, Stage.flow?] at hf <;> cases hf <;> rfl

theorem Carries.updateEndpoint (h : Carries A (.check n) s t) {f : Endpoint → Endpoint}
    (hp : ∀ e, (f e).port = e.port ∧ (f e).answer = e.answer)
    (hh : ∀ ch, t.channel n = some ch → ∀ e ∈ ch.members, ∀ x ∈ (f e).holds, x ∈ e.holds ∨
      ∀ d, x.deadline = some d → d = t.time.counter + BitVec.ofNat 32 (ch.holdLimit + 1))
    (hf : ∀ ch, t.channel n = some ch → ChannelForm A ch → ∀ e ∈ ch.members, e.port = p →
      ((f e).holds.length ≤ 4 ∧ (f e).lapsed.length ≤ 4) ∧
      ∀ d, ch.stage = .offered d → (f e).queue = [] ∧ (f e).holds = [] ∧ (f e).lapsed = []) :
    Carries A (.check n) s (t.updateEndpoint n p f) := by
  unfold State.updateEndpoint
  cases hc : t.channel n with
  | none => rw [t.updateChannel_of_none n hc]; exact h
  | some ch =>
    rw [t.updateChannel_of_some n hc]
    exact h.useOwing hc (.updateEndpoint _ ch (fun e => (hp e).1) (hh ch hc)) (fun hform =>
      hform.updateEndpoint hp (fun e he hep => (hf ch hc hform e he hep).1)
        (fun d hd e he hep => (hf ch hc hform e he hep).2 d hd))

theorem Carries.removeMember (h : Carries A .nothing s t) {f : Flow} (hc : t.channel n = some ch)
    (hf : ch.stage.flow? = some f) (p : Port) (r : GoneReason) : Carries A .nothing s (t.removeMember n p r) := by
  have told : ∀ (o : Owed), Carries A o s (t.setChannel n (some (ch.without p))) → ∀ e : Endpoint, Carries A o s
      ((((t.setChannel n (some (ch.without p))).appendEvents (if ch.producerPresent then [ch.producer] else [])
        (.consumerGone n p r)).claims .removeQueued e.queue).claims .removeHeld (e.holds.map (fun d => d.handle))) :=
    fun o h' e => ((h'.appendEvents _ _).claims _ _).claims _ _
  simp only [State.removeMember, hc]
  split
  · exact h
  · rename_i e he
    split
    · exact (told _ (h.useEnding hc (.without _ ch p)) e).endConduit _
    · rename_i hall
      have hother : ∃ e ∈ ch.members, e.port ≠ p := by simpa using hall
      exact (told _ ((h.owe (.check n)).useOwing hc (.without _ ch p)
        (fun hform => hform.without hf hother)) e).drainCheck

theorem Carries.flushMember (h : Carries A (.check n) s t) (e : Endpoint) :
    Carries A (.check n) s (t.flushMember n e) := by
  have emptied : Carries A (.check n) s (t.updateEndpoint n e.port (fun e => { e with queue := [] })) :=
    h.updateEndpoint (fun _ => ⟨rfl, rfl⟩) (fun _ _ _ _ x hx => .inl hx) (fun c hc hform x hx _ =>
      ⟨hform.kept x hx, fun d hd => ⟨rfl, (hform.offered d hd).2.2 x hx |>.2⟩⟩)
  unfold State.flushMember
  split
  · exact emptied.claims _ _
  · exact (emptied.claims _ _).appendEvent _ _

/-! #### Holds -/

theorem Carries.dropHold (h : Carries A (.check n) s t) (d : Hold) :
    Carries A (.check n) s (t.updateEndpoint n p (fun e => e.dropHold d)) :=
  h.updateEndpoint (fun _ => ⟨rfl, rfl⟩) (fun _ _ _ _ x hx => .inl (List.mem_of_mem_erase hx))
    (fun c hc hform e he _ => ⟨⟨(List.length_erase_le).trans (hform.kept e he).1, (hform.kept e he).2⟩, fun x hx => by
      obtain ⟨hq, hh, hl⟩ := (hform.offered x hx).2.2 e he
      exact ⟨hq, by simp [Endpoint.dropHold, hh], hl⟩⟩)

theorem appendLapsed_length (l : List Half) (q : Half) (h : l.length ≤ 4) : (appendLapsed l q).length ≤ 4 := by
  have hle : (l.erase q).length ≤ 4 := List.length_erase_le.trans h
  by_cases hlt : (l.erase q).length < 4
  · simp only [appendLapsed, Config.lapsedPerEndpoint, hlt, if_true, List.length_append, List.length_singleton]
    omega
  · simp only [appendLapsed, Config.lapsedPerEndpoint, hlt, if_false, List.length_append, List.length_singleton,
      List.length_tail]
    omega

/-- A member's endpoint after a lapse of one of its holds (R77). -/
def Endpoint.lapse (d : Hold) (q : Half) (e : Endpoint) : Endpoint :=
  { e with holds := e.holds.erase d, lapsed := appendLapsed e.lapsed q }

theorem Channel.updateEndpoint_updateEndpoint (ch : Channel) (p : Port) (f g : Endpoint → Endpoint)
    (hf : ∀ e, (f e).port = e.port) :
    (ch.updateEndpoint p f).updateEndpoint p g = ch.updateEndpoint p (fun e => g (f e)) := by
  simp only [Channel.updateEndpoint, List.map_map]
  congr 2
  funext e
  by_cases he : e.port = p <;> simp [he, hf]

theorem State.updateEndpoint_updateEndpoint (s : State) (n : ConduitNo) (p : Port) (f g : Endpoint → Endpoint)
    (hf : ∀ e, (f e).port = e.port) :
    (s.updateEndpoint n p f).updateEndpoint n p g = s.updateEndpoint n p (fun e => g (f e)) := by
  cases hc : s.channel n with
  | none => simp only [State.updateEndpoint, s.updateChannel_of_none n hc]
  | some ch =>
    simp only [State.updateEndpoint, s.updateChannel_of_some n hc]
    rw [State.updateChannel_of_some _ n (State.setChannel_channel_self s n _), State.setChannel_setChannel,
      Channel.updateEndpoint_updateEndpoint ch p f g hf]

theorem State.updateChannel_tell (s : State) (n : ConduitNo) (f : Channel → Channel) (R : Port → List Event) :
    (s.tell R).updateChannel n f = (s.updateChannel n f).tell R := by
  cases hc : s.channel n with
  | none => rw [s.updateChannel_of_none n hc, (s.tell R).updateChannel_of_none n hc]
  | some ch => rw [s.updateChannel_of_some n hc, (s.tell R).updateChannel_of_some n hc, State.tell_setChannel]

/-- Changes of one slot or of two that do not read each other's fields can be made in either order. -/
theorem State.updateChannel_comm (s : State) (m n : ConduitNo) {f g : Channel → Channel}
    (hfg : ∀ ch, f (g ch) = g (f ch)) :
    (s.updateChannel m g).updateChannel n f = (s.updateChannel n f).updateChannel m g := by
  cases hm : s.channel m with
  | none =>
    have hm' : (s.updateChannel n f).channel m = none := by
      rw [State.updateChannel_channel]
      split
      · rename_i e; subst e; rw [hm]; rfl
      · exact hm
    rw [s.updateChannel_of_none m hm, State.updateChannel_of_none _ m hm']
  | some x =>
    cases hn : s.channel n with
    | none =>
      have hne : n ≠ m := fun e => by subst e; rw [hm] at hn; cases hn
      have hn' : (s.setChannel m (some (g x))).channel n = none := by rw [State.setChannel_channel_ne _ _ hne, hn]
      rw [s.updateChannel_of_none n hn, s.updateChannel_of_some m hm, State.updateChannel_of_none _ n hn']
    | some y =>
      rw [s.updateChannel_of_some m hm, s.updateChannel_of_some n hn]
      by_cases e : n = m
      · subst e
        rw [hm] at hn
        cases hn
        rw [State.updateChannel_of_some _ n (State.setChannel_channel_self s n _),
          State.updateChannel_of_some _ n (State.setChannel_channel_self s n _), State.setChannel_setChannel,
          State.setChannel_setChannel, hfg]
      · have hn' : (s.setChannel m (some (g x))).channel n = some y := by rw [State.setChannel_channel_ne _ _ e, hn]
        have hm' : (s.setChannel n (some (f y))).channel m = some x := by
          rw [State.setChannel_channel_ne _ _ (fun e' => e e'.symm), hm]
        have hval : m.val ≠ n.val := fun h => e (Fin.ext h.symm)
        rw [State.updateChannel_of_some _ n hn', State.updateChannel_of_some _ m hm']
        simp only [State.setChannel, State.conduit, Fin.getElem_fin, Vector.getElem_set_ne _ _ hval,
          Vector.getElem_set_ne _ _ hval.symm]
        rw [Vector.set_comm _ _ hval]

/-- A member's entries and a slot's freeing notices leave each other alone. -/
theorem State.noticed_updateEndpoint (s : State) (m n : ConduitNo) (i : Nat) (p : Port) (f : Endpoint → Endpoint) :
    (s.noticed m i).updateEndpoint n p f = (s.updateEndpoint n p f).noticed m i := by
  have hreopen : (s.updateEndpoint n p f).reopening m i = s.reopening m i := by
    funext q
    unfold State.reopening State.updateEndpoint
    rw [State.updateChannel_channel]
    by_cases e : m = n
    · subst e; rw [if_pos rfl]; cases s.channel m <;> rfl
    · rw [if_neg e]
  have hcomm : (s.updateChannel m (Channel.mapFlow (fun f => f.afterFreeing i))).updateEndpoint n p f =
      (s.updateEndpoint n p f).updateChannel m (Channel.mapFlow (fun f => f.afterFreeing i)) :=
    s.updateChannel_comm m n (fun _ => rfl)
  rw [State.noticed, State.noticed, hreopen, ← hcomm]
  exact State.updateChannel_tell _ n _ _

theorem State.claim_updateEndpoint (s : State) (c : Claim) (h : Handle) (n : ConduitNo) (p : Port)
    (f : Endpoint → Endpoint) : (s.claim c h).updateEndpoint n p f = (s.updateEndpoint n p f).claim c h := by
  have hpool (pool : Pool) : ({ s with pool } : State).updateEndpoint n p f =
      ({ s.updateEndpoint n p f with pool } : State) := by
    unfold State.updateEndpoint
    cases hc : s.channel n with
    | none => rw [s.updateChannel_of_none n hc, ({ s with pool } : State).updateChannel_of_none n hc]
    | some ch => rw [s.updateChannel_of_some n hc, ({ s with pool } : State).updateChannel_of_some n hc]; rfl
  have hseg : (s.updateEndpoint n p f).segment h = s.segment h := s.updateChannel_segment h n _
  have hp : (s.updateEndpoint n p f).pool = s.pool := s.updateChannel_pool n _
  rw [State.claim_eq, State.claim_eq, hseg, hp, ← hpool]
  cases (s.segment h).bind (Segment.noticeOf c) with
  | none => rfl
  | some m => exact State.noticed_updateEndpoint _ m n 1 p f

/-- The lapse of a hold as one change of its member's endpoint (R76, R77). -/
theorem State.lapseHold_eq {q : Half} {d : Hold} (hd : s.dueHold? n p q = some d) : s.lapseHold n p q =
    (((s.updateEndpoint n p (Endpoint.lapse d q)).claim .holdLapse d.handle).appendEvent p
      (.holdLapsed n q)).drainCheck n := by
  simp only [State.lapseHold, hd]
  rw [State.claim_updateEndpoint, s.updateEndpoint_updateEndpoint n p (fun e => e.dropHold d) _ (fun _ => rfl)]
  rfl

theorem State.lapseHold_of_none {q : Half} (hd : s.dueHold? n p q = none) : s.lapseHold n p q = s := by
  simp only [State.lapseHold, hd]

/-- A due hold is a hold of the member in the slot. -/
theorem State.dueHold?_some {q : Half} {d : Hold} (hd : s.dueHold? n p q = some d) :
    ∃ ch e, s.channel n = some ch ∧ ch.endpoint? p = some e ∧ d ∈ e.holds ∧ d.sequence = q ∧
      d.deadline = some s.time.counter := by
  unfold State.dueHold? at hd
  split at hd
  · cases hd
  · rename_i ch hc
    split at hd
    · cases hd
    · rename_i e he
      have hsat := List.find?_some hd
      simp only [Bool.and_eq_true, beq_iff_eq] at hsat
      exact ⟨ch, e, hc, he, List.mem_of_find?_eq_some hd, hsat.1, hsat.2⟩

theorem Carries.lapseHold (h : Carries A .nothing s t) (n : ConduitNo) (p : Port) (q : Half) :
    Carries A .nothing s (t.lapseHold n p q) := by
  cases hd : t.dueHold? n p q with
  | none => rw [t.lapseHold_of_none hd]; exact h
  | some d =>
    obtain ⟨ch, e, hc, he, hmem, -⟩ := State.dueHold?_some hd
    rw [State.lapseHold_eq hd]
    have lapsed : Carries A (.check n) s (t.updateEndpoint n p (Endpoint.lapse d q)) := by
      refine (h.owe (.check n)).updateEndpoint (fun _ => ⟨rfl, rfl⟩)
        (fun _ _ _ _ x hx => .inl (List.mem_of_mem_erase hx)) (fun c hc' hform x hx _ =>
          ⟨⟨List.length_erase_le.trans (hform.kept x hx).1, appendLapsed_length _ _ (hform.kept x hx).2⟩,
            fun y hy => ?_⟩)
      rw [hc] at hc'
      cases hc'
      have hnone := ((hform.offered y hy).2.2 e (Channel.endpoint?_some he).1).2.1
      rw [hnone] at hmem
      cases hmem
    exact ((lapsed.claim _ _).appendEvent _ _).drainCheck

theorem Endpoint.holds_lt_of_room {e : Endpoint} (h : e.hasHoldRoom = true) : e.holds.length < 4 :=
  of_decide_eq_true h

/-- A TAKE by a member with room for one more hold, in an OPEN or DRAINING conduit (R68). -/
theorem Carries.takeHead (h : Carries A .nothing s t) {e : Endpoint} {f : Flow} (hc : t.channel n = some ch)
    (hf : ch.stage.flow? = some f) (he : ch.endpoint? p = some e) (hroom : e.hasHoldRoom = true) (k : Handle) :
    Carries A .nothing s (t.takeHead p n ch k) := by
  have taken : Carries A (.check n) s (t.updateEndpoint n p (fun e => { e with
      queue := e.queue.tail
      holds := e.holds ++
        [{ sequence := t.sequenceOf k, handle := k, deadline := t.holdDeadline ch.holdLimit }] })) := by
    refine (h.owe (.check n)).updateEndpoint (fun _ => ⟨rfl, rfl⟩) (fun c hc' x hx y hy => ?_)
      (fun c hc' hform x hx hp => ⟨⟨?_, (hform.kept x hx).2⟩, fun d hd => ?_⟩)
    all_goals
      rw [hc] at hc'
      cases hc'
    · refine (List.mem_append.1 hy).imp_right fun hy d hd => ?_
      rw [List.mem_singleton.1 hy] at hd
      simp only [State.holdDeadline] at hd
      split at hd
      · cases hd
      · cases hd; rfl
    · have hx' : x = e := Channel.endpoint_unique hform.distinct hx (Channel.endpoint?_some he).1
        (hp.trans (Channel.endpoint?_some he).2.symm)
      have := Endpoint.holds_lt_of_room hroom
      rw [hx', List.length_append, List.length_singleton]
      omega
    · exact absurd hd (Stage.flow?_isSome_iff.1 ⟨f, hf⟩ d)
  exact (taken.claim _ _).drainCheck

/-! #### Offers, openings and closings -/

theorem Carries.lapseOffer (h : Carries A .nothing s t) (n : ConduitNo) : Carries A .nothing s (t.lapseOffer n) := by
  unfold State.lapseOffer
  split
  · exact h
  · split
    · split
      · exact h.failOffer _ _ _
      · exact h
    · exact h
    · exact h

theorem Continues.accepting (c : Tick) (ch : Channel) (p : Port) (w z : Nat) : Continues c ch (ch.accepting p w z) :=
  .updateEndpoint c ch (fun _ => rfl) (fun _ _ _ hx => .inl hx)

/-- An acceptance in range recorded, and the opening where it was the last (R34, R35). -/
theorem Carries.recordAccept (h : Carries A .nothing s t) {d : Tick} (hc : t.channel n = some ch)
    (hd : ch.stage = .offered d) (p : Port) {w z : Nat} (hw : 1 ≤ w ∧ w ≤ 16) (hz : 1 ≤ z ∧ z ≤ 1024) :
    Carries A .nothing s (t.recordAccept n ch p w z) := by
  have hst : (ch.accepting p w z).stage = .offered d := hd
  have heq : ch.updateEndpoint p (fun e => { e with answer := .accepted w z }) = ch.accepting p w z := rfl
  simp only [State.recordAccept, heq]
  split
  · rename_i hany
    refine h.use hc (.accepting _ ch p w z) (fun hform => hform.accepting hd hw hz ?_) (fun _ f hf => ?_)
    · simpa using hany
    · rw [hst] at hf; cases hf
  · rename_i hany
    refine (h.use hc ?_ (fun hform => hform.opening hd hw hz ?_) (fun _ f hf => by cases hf)).appendEvents _ _
    · have hk := Continues.accepting t.time.counter ch p w z
      exact ⟨hk.limit, hk.producer, hk.present, hk.ports, nofun, hk.holds⟩
    · simpa using hany

/-- An OPEN or DRAINING conduit made DRAINING, its drain check owed. -/
theorem Carries.drain (h : Carries A .nothing s t) {f : Flow} (hc : t.channel n = some ch)
    (hf : ch.stage.flow? = some f) {present : Bool} (hp : present = true → ch.producerPresent = true) :
    Carries A (.check n) s (t.setChannel n (some { ch.drain with producerPresent := present })) := by
  rw [Channel.drain_eq hf]
  exact (h.owe (.check n)).useOwing hc (.draining _ ch _ hp) (fun hform => hform.draining hf hp)

/-! #### Fills -/

/-- A delivery to the members of an OPEN or DRAINING conduit (R55). -/
theorem Carries.deliver (h : Carries A .nothing s t) {k : Handle} {g : Segment} {f : Flow}
    (hc : t.channel n = some ch) (hf : ch.stage.flow? = some f) : Carries A .nothing s (t.deliver k g n ch f) := by
  have hno := Stage.flow?_isSome_iff.1 ⟨f, hf⟩
  rw [State.deliver_eq]
  refine Carries.appendEvents (Carries.aside (h.use hc ?_ (fun hform => ?_) (fun hs x hx => ?_))
    (State.setSegment_surroundings _ k _).aside rfl) _ _
  · refine ⟨rfl, rfl, id, fun q hq => ?_, fun d hd => Stage.mapFlow_offered hd, fun e' he' x hx => ?_⟩
    · simpa [Channel.memberPorts] using hq
    · obtain ⟨e, he, rfl⟩ := List.mem_map.1 he'
      exact .inl ⟨e, he, rfl, hx⟩
  · exact (hform.mapMembers (f := fun e => { e with queue := e.queue ++ [k] }) (fun _ => ⟨rfl, rfl⟩) hform.kept
      (fun d hd => absurd hd (hno d))).mapFlow (fun _ => ⟨rfl, rfl⟩)
  · have hdraining : ∃ y, ch.stage = .draining y := by
      cases hst : ch.stage with
      | draining y => exact ⟨y, rfl⟩
      | offered d => exact absurd hst (hno d)
      | opened y => simp [hst, Stage.mapFlow] at hx
    obtain ⟨y, hy⟩ := hdraining
    have hund := hs y hy
    simp only [Channel.drained, List.all_eq_false] at hund ⊢
    obtain ⟨e, he, hund⟩ := hund
    exact ⟨_, List.mem_map_of_mem he, by simp⟩

theorem Carries.setOutcome (h : Carries A o s t) (p : Port) (r : OutcomeCode) : Carries A o s (t.setOutcome p r) :=
  h.setPort id

theorem Carries.endTransaction (h : Carries A o s t) (p : Port) : Carries A o s (t.endTransaction p) := h.setPort id

theorem Carries.completeFill (h : Carries A .nothing s t) (p : Port) (k : Handle) (count : Nat) :
    Carries A .nothing s (t.completeFill p k count) := by
  unfold State.completeFill
  split
  · exact h
  · rename_i g hg
    split
    · exact (h.freeDescriptor k).setOutcome p _
    · split
      · exact (h.freeDescriptor k).setOutcome p _
      · rename_i n ch f ht
        obtain ⟨-, hc, hf, -⟩ := State.deliveryTarget_eq_some ht
        exact (h.deliver hc hf).setOutcome p _

theorem Carries.endTransfer (h : Carries A o s t) (p : Port) : Carries A o s (t.endTransfer p) := by
  unfold State.endTransfer
  split
  · exact h
  · exact (h.claim .transferEnd _).setPort id

theorem Carries.releaseSelect (h : Carries A .nothing s t) (p : Port) : Carries A .nothing s (t.releaseSelect p) := by
  unfold State.releaseSelect
  split
  · exact h
  · split
    · exact h.endTransaction p
    · exact h.setPort id
    · exact (h.endTransfer p).endTransaction p
    · split
      · exact h.endTransaction p
      · exact (h.completeFill p _ _).endTransaction p

theorem Carries.abort (h : Carries A o s t) (p : Port) : Carries A o s (t.abort p) := by
  unfold State.abort
  split
  · exact (h.freeDescriptor _).endTransaction p
  · exact (h.endTransfer p).endTransaction p

theorem Carries.receivePayload (h : Carries A o s t) (p : Port) (bytes : List Byte) :
    Carries A o s (t.receivePayload p bytes) := by
  unfold State.receivePayload
  split
  · rename_i x k hx hk
    have counted : Carries A o s (t.setPort p { t.port p with
        transaction := some { x with byteCount := x.byteCount + bytes.length } }) := h.setPort id
    split
    · exact counted.aside (State.setSegment_surroundings _ _ _).aside rfl
    · exact counted
  · exact h

/-! #### Proposals and requests -/

theorem Aside.of_proposal {pa : Partition} {at' : Attention} {ev : PerPort EventQueue}
    (h : ∀ pr', pa.proposal = some pr' →
      (∃ pr, s.partition.proposal = some pr ∧ pr'.deadline = pr.deadline) ∨ pr'.deadline = s.deadlineAfter 250) :
    Aside s { s with partition := pa, attention := at', events := ev } := ⟨⟨rfl, rfl, h⟩, fun _ h => h⟩

theorem Carries.resolveProposal (h : Carries A o s t) (pr : Proposal) (r : ProposalResult) :
    Carries A o s (t.resolveProposal pr r) :=
  (h.aside (.of_proposal (pa := { t.partition with proposal := none }) nofun) rfl).appendEvents _ _

theorem Carries.abandonProposal (h : Carries A o s t) (p : Port) : Carries A o s (t.abandonProposal p) := by
  unfold State.abandonProposal
  split
  · exact h
  · exact h.resolveProposal _ _

theorem Carries.adoptProposal (h : Carries A o s t) (pr : Proposal) : Carries A o s (t.adoptProposal pr) := by
  unfold State.adoptProposal
  split
  · exact h.resolveProposal _ _
  · exact Carries.resolveProposal (h.aside (.of_proposal (s := t) (at' := t.attention) (ev := t.events)
      (pa := { t.partition with quotas := pr.quotas, generation := t.partition.generation + 1 })
      (fun pr hp => .inl ⟨pr, hp, rfl⟩)) rfl) pr .adopted

theorem Carries.makeProposal (h : Carries A o s t) (p : Port) (q : PerPort Quota) :
    Carries A o s (t.makeProposal p q) := by
  have made := h.aside (.of_proposal (s := t) (at' := t.attention) (ev := t.events)
    (pa := { t.partition with
      proposal := some
        { id := nextProposalId t.partition.idCounter
          proposer := p
          quotas := q
          votes := t.firstVotes p
          deadline := t.deadlineAfter Config.proposalLimit }
      idCounter := nextProposalId t.partition.idCounter }) (fun pr' hp => .inr (by cases hp; rfl))) rfl
  unfold State.makeProposal
  simp only
  split
  · exact made.appendEvents _ _
  · exact (made.appendEvents _ _).adoptProposal _

theorem Carries.lapseProposal (h : Carries A o s t) : Carries A o s t.lapseProposal := by
  unfold State.lapseProposal
  split
  · exact h
  · split
    · exact h.resolveProposal _ _
    · exact h

theorem Carries.takeExpiry (h : Carries A .nothing s t) (x : Expiry) : Carries A .nothing s (t.takeExpiry x) := by
  cases x with
  | offer n => exact h.lapseOffer n
  | proposal => exact h.lapseProposal
  | hold n p q => exact h.lapseHold n p q

end CarryingOperations

end Sys2Proof.Machine

/-! ### What the rows carry on -/

namespace Sys2Proof.Machine

section CarryingRows

variable {A : Port → Prop} {s t u : State} {n : ConduitNo} {p : Port} {ch ch' : Channel}

/-! #### The owning blocks' answers -/

theorem nextEventAnswer_carries (p : Port) (s : State) : Carries A .nothing s (nextEventAnswer p s).state := by
  unfold nextEventAnswer
  split
  · exact .refl A s
  · exact (Carries.refl A s).aside (.of_proposal (fun pr h => .inl ⟨pr, h, rfl⟩)) rfl

theorem windowValid_iff {b : Byte} : windowValid b = true ↔ 1 ≤ b.toNat ∧ b.toNat ≤ 16 := decide_eq_true_iff

theorem sizeValid_iff {x : Half} : sizeValid x = true ↔ 1 ≤ x.toNat ∧ x.toNat ≤ 1024 := decide_eq_true_iff

theorem holdLimitValid_iff {x : Half} : holdLimitValid x = true ↔ x.toNat ≤ 1000 := decide_eq_true_iff

theorem answerAnswer_carries (p : Port) (b g c wl : Byte) (sl : Half) (s : State) :
    Carries A .nothing s (answerAnswer p b g c wl sl s).state :=
  s.onConduit_keeps (.refl A s) (fun n ch hc => by
    split
    · exact .refl A s
    · split
      · exact .refl A s
      · exact .refl A s
      · rename_i d hd
        split
        · exact .refl A s
        · split
          · exact .refl A s
          · split
            · exact .refl A s
            · exact (Carries.refl A s).failOffer n _ _
            · split
              · rename_i hv
                simp only [Bool.and_eq_true, windowValid_iff, sizeValid_iff] at hv
                exact (Carries.refl A s).recordAccept hc hd p hv.1 hv.2
              · exact .refl A s)

theorem closeAnswer_carries (p : Port) (b : Byte) (s : State) : Carries A .nothing s (closeAnswer p b s).state :=
  s.asProducer_keeps p (.refl A s) (fun n ch hc _ => by
    split
    · exact (Carries.refl A s).failOffer n _ _
    · rename_i f hf
      have hfl : ch.stage.flow? = some f := by rw [hf]; rfl
      have hdrain : ch.drain = { ch.drain with producerPresent := ch.producerPresent } := by rw [Channel.drain_eq hfl]
      rw [hdrain]
      exact (((Carries.refl A s).drain hc hfl id).appendEvents _ _).drainCheck
    · exact .refl A s)

theorem leaveAnswer_carries (p : Port) (b : Byte) (s : State) : Carries A .nothing s (leaveAnswer p b s).state :=
  s.asMember_keeps p (.refl A s) (fun _ _ _ hc _ ⟨_, hf⟩ => (Carries.refl A s).removeMember hc hf p _)

theorem flushAnswer_carries (p : Port) (b : Byte) (s : State) : Carries A .nothing s (flushAnswer p b s).state :=
  s.asProducer_keeps p (.refl A s) (fun n ch _ _ => by
    have flushed : ∀ (l : List Endpoint) (t : State), Carries A (.check n) s t →
        Carries A (.check n) s (l.foldl (fun s e => s.flushMember n e) t) := by
      intro l
      induction l with
      | nil => exact fun _ h => h
      | cons e l ih => exact fun t h => ih _ (h.flushMember e)
    have done := (flushed ch.members s ((Carries.refl A s).owe _)).drainCheck
    split
    · exact .refl A s
    · exact done
    · exact done)

theorem Carries.startFill {o : Owed} (h : Carries A o s t) (n : ConduitNo) (p : Port) (k : Handle) (length : Nat) :
    Carries A o s (t.startFill k p n length) := by
  have allocated : Carries A o s ({ t with pool := t.pool.allocate k p n length } : State) :=
    h.aside (t.withPool_surroundings _).aside rfl
  exact allocated.updateFlow n (fun _ => ⟨rfl, rfl⟩)

theorem postAnswer_carries (p : Port) (b : Byte) (len : Half) (s : State) :
    Carries A .nothing s (postAnswer p b len s).state :=
  s.asProducer_keeps p (.refl A s) (fun n ch _ _ => by
    split
    · exact .refl A s
    · exact .refl A s
    · split
      · exact .refl A s
      · split
        · exact .refl A s
        · split
          · exact (Carries.refl A s).updateFlow n (fun _ => ⟨rfl, rfl⟩)
          · split
            · exact .refl A s
            · split
              · exact .refl A s
              · split
                · exact .refl A s
                · exact (Carries.refl A s).startFill n _ _ _)

theorem takeAnswer_carries (p : Port) (b : Byte) (s : State) : Carries A .nothing s (takeAnswer p b s).state :=
  s.asMember_keeps p (.refl A s) (fun n ch e hc he ⟨f, hf⟩ => by
    split
    · exact .refl A s
    · split
      · exact .refl A s
      · rename_i hroom
        exact (Carries.refl A s).takeHead hc hf he (by simpa using hroom) _)

/-- The slot the arbiter chooses is one the port is eligible in (R70). -/
theorem State.takeAnyChoice_eligible (h : s.takeAnyChoice p = some n) : ∃ cls, s.eligible p cls n = true := by
  simp only [State.takeAnyChoice, Option.or_eq_some_iff] at h
  obtain h | ⟨-, h⟩ := h
  · exact ⟨.urgent, List.find?_some h⟩
  · exact ⟨.routine, List.find?_some h⟩

theorem takeAnyAnswer_carries (p : Port) (s : State) : Carries A .nothing s (takeAnyAnswer p s).state := by
  unfold takeAnyAnswer
  split
  · split <;> exact .refl A s
  · rename_i n hn
    split
    · exact .refl A s
    · rename_i hw
      obtain ⟨cls, helig⟩ := State.takeAnyChoice_eligible hn
      simp only [State.eligible, hw, Option.any_some, Bool.and_eq_true] at helig
      obtain ⟨hc, ⟨f, hf⟩, he, -⟩ := State.waiting?_some hw
      exact ((Carries.refl A s).takeHead hc hf he helig.2 _).setPort id

theorem peekAnswer_carries (p : Port) (b : Byte) (s : State) : Carries A .nothing s (peekAnswer p b s).state :=
  s.asMember_keeps p (.refl A s) (fun n ch e _ _ _ => by
    split
    · exact .refl A s
    · exact (Carries.refl A s).claim .peek _)

theorem readHeldAnswer_carries (p : Port) (b : Byte) (q : Half) (s : State) :
    Carries A .nothing s (readHeldAnswer p b q s).state :=
  s.asMember_keeps p (.refl A s) (fun n ch e _ _ _ => by
    split
    · exact .refl A s
    · exact (Carries.refl A s).claim .heldRead _)

theorem Channel.drained_updateEndpoint {f : Endpoint → Endpoint}
    (hf : ∀ e, (f e).queue = e.queue ∧ (f e).holds = e.holds) : (ch.updateEndpoint p f).drained = ch.drained := by
  simp only [Channel.drained, Channel.updateEndpoint, List.all_map]
  congr 1
  funext e
  by_cases hp : e.port = p <;> simp [hp, hf]

theorem releaseAnswer_carries (p : Port) (b : Byte) (q : Half) (s : State) :
    Carries A .nothing s (releaseAnswer p b q s).state :=
  s.asMember_keeps p (.refl A s) (fun n ch e hc _ ⟨f, hf⟩ => by
    split
    · exact ((((Carries.refl A s).owe _).dropHold _).claim .release _).drainCheck
    · split
      · simp only [State.updateEndpoint, s.updateChannel_of_some n hc]
        refine (Carries.refl A s).use hc (.updateEndpoint _ ch (fun _ => rfl) (fun _ _ _ hx => .inl hx)) (fun hform =>
          hform.updateEndpoint (fun _ => ⟨rfl, rfl⟩) (fun x hx _ =>
            ⟨(hform.kept x hx).1, List.length_erase_le.trans (hform.kept x hx).2⟩)
          (fun d hd => absurd hd (Stage.flow?_isSome_iff.1 ⟨f, hf⟩ d))) (fun hs y hy => ?_)
        exact (Channel.drained_updateEndpoint (f := fun e => { e with lapsed := e.lapsed.erase q })
          (fun _ => ⟨rfl, rfl⟩)).trans (hs y hy)
      · exact .refl A s)

theorem attention_aside (s : State) (a : Attention) : Aside s { s with attention := a } :=
  .of_proposal (fun pr h => .inl ⟨pr, h, rfl⟩)

theorem attendAnswer_carries (p : Port) (target vector : Byte) (argument : Half) (s : State) :
    Carries A .nothing s (attendAnswer p target vector argument s).state := by
  unfold attendAnswer
  split
  · exact .refl A s
  · split
    · exact .refl A s
    · split
      · exact .refl A s
      · split
        · exact .refl A s
        · exact (Carries.refl A s).aside (attention_aside s _) rfl

theorem acceptAttnAnswer_carries (p : Port) (s : State) : Carries A .nothing s (acceptAttnAnswer p s).state := by
  unfold acceptAttnAnswer
  split
  · exact .refl A s
  · rename_i e rest _
    have taken := (Carries.refl A s).aside
      (attention_aside s ((s.attention.setQueue p rest).setPair e.source p .taken)) rfl
    exact taken.appendEvent _ _

theorem withdrawAttnAnswer_carries (p : Port) (target : Byte) (s : State) :
    Carries A .nothing s (withdrawAttnAnswer p target s).state := by
  unfold withdrawAttnAnswer
  split
  · exact .refl A s
  · split
    · exact .refl A s
    · split
      · exact .refl A s
      · exact (Carries.refl A s).aside (attention_aside s _) rfl
      · exact (Carries.refl A s).aside (attention_aside s _) rfl

theorem proposeAnswer_carries (p : Port) (q : PerPort QuotaArgument) (s : State) :
    Carries A .nothing s (proposeAnswer p q s).state := by
  unfold proposeAnswer
  simp only
  split
  · exact .refl A s
  · split
    · exact .refl A s
    · split
      · exact .refl A s
      · split
        · exact .refl A s
        · exact (Carries.refl A s).makeProposal p _

theorem voteAnswer_carries (p : Port) (id choice : Byte) (s : State) :
    Carries A .nothing s (voteAnswer p id choice s).state := by
  unfold voteAnswer
  split
  · exact .refl A s
  · rename_i pr hpr
    split
    · exact .refl A s
    · split
      · exact .refl A s
      · split
        · exact .refl A s
        · exact (Carries.refl A s).resolveProposal _ _
        · have recorded := (Carries.refl A s).aside (.of_proposal (s := s) (at' := s.attention) (ev := s.events)
            (pa := { s.partition with proposal := some { pr with votes := pr.votes.set p .accept } })
            (fun pr' h => .inl ⟨pr, hpr, by cases h; rfl⟩)) rfl
          simp only
          split
          · exact recorded
          · exact recorded.adoptProposal _

theorem cancelProposalAnswer_carries (p : Port) (id : Byte) (s : State) :
    Carries A .nothing s (cancelProposalAnswer p id s).state := by
  unfold cancelProposalAnswer
  split
  · exact .refl A s
  · split
    · exact .refl A s
    · split
      · exact .refl A s
      · exact (Carries.refl A s).resolveProposal _ _

theorem State.conduitInfo_state (b : Byte) (s : State) : (conduitInfoAnswer b s).state = s := by
  unfold conduitInfoAnswer
  split <;> rfl

theorem State.attach_carries (s : State) (p : Port) : Carries A .nothing s (s.attach p) := by
  have joined : Carries A .nothing s { s.setPort p { s.port p with state := .attached, rotation := 23 } with
      events := s.events.set p EventQueue.initial } :=
    ((Carries.refl A s).setPort (fun _ => rfl)).aside (.of_proposal (fun pr h => .inl ⟨pr, h, rfl⟩)) rfl
  exact (joined.abandonProposal p).appendEvents _ _

/-! #### Departures -/

/-- The port takes no part in the use of a slot. -/
def Channel.Apart (ch : Channel) (p : Port) : Prop := ch.presentProducer p = false ∧ p ∉ ch.memberPorts

theorem Continues.unproduced {c : Tick} (hk : Continues c ch ch') (h : ch.presentProducer p = false) :
    ch'.presentProducer p = false := by
  simp only [Channel.presentProducer, hk.producer, Bool.and_eq_false_iff, beq_eq_false_iff_ne] at h ⊢
  exact h.imp_right fun hp => Bool.eq_false_iff.2 (fun hp' => by rw [hk.present hp'] at hp; cases hp)

theorem Continues.apart {c : Tick} (hk : Continues c ch ch') (h : ch.Apart p) : ch'.Apart p :=
  ⟨hk.unproduced h.1, fun hp => h.2 (hk.ports p hp)⟩

theorem State.endConduit_channel (s : State) (n : ConduitNo) (r : EndReason) : (s.endConduit n r).channel n = none := by
  unfold State.endConduit
  split
  · rename_i hc; exact hc
  · rw [State.teardown_channel, if_pos rfl]

/-- A drain check leaves a slot in the use it had, or FREE (R41). -/
theorem State.drainCheck_channel_some (h : (s.drainCheck n).channel n = some ch) : s.channel n = some ch := by
  unfold State.drainCheck at h
  split at h
  · exact h
  · split at h
    · split at h
      · rw [State.endConduit_channel] at h; cases h
      · exact h
    · exact h

theorem State.removeMember_not_member {r : GoneReason} (h : (s.removeMember n p r).channel n = some ch) :
    p ∉ ch.memberPorts := by
  unfold State.removeMember at h
  split at h
  · rename_i hc; rw [hc] at h; cases h
  · rename_i x hc
    split at h
    · rename_i he
      rw [hc] at h
      cases h
      exact Channel.endpoint?_eq_none.1 he
    · rename_i e he
      simp only at h
      split at h
      · rw [State.endConduit_channel] at h; cases h
      · have hm := congrArg (Option.map Channel.members) (State.drainCheck_channel_some h)
        rw [State.claims_members, State.claims_members, State.appendEvents_channel, State.setChannel_channel_self] at hm
        simp only [Option.map_some, Option.some.injEq] at hm
        simp [Channel.memberPorts, ← hm]

theorem Carries.departConduit (h : Carries A .nothing s t) (p : Port) (n : ConduitNo) :
    Carries A .nothing s (t.departConduit p n) := by
  have drained : ∀ {ch : Channel} {f : Flow}, t.channel n = some ch → ch.stage.flow? = some f →
      Carries A .nothing s (((t.setChannel n (some { ch.drain with producerPresent := false })).appendEvents
        ch.memberPorts (.producerGone n)).drainCheck n) := fun hc hf =>
    ((h.drain hc hf (present := false) nofun).appendEvents _ _).drainCheck
  unfold State.departConduit
  split
  · exact h
  · rename_i ch hc
    split
    · split
      · exact h.failOffer _ _ _
      · rename_i f hst; exact drained hc (by rw [hst]; rfl)
      · rename_i f hst; exact drained hc (by rw [hst]; rfl)
    · split
      · exact h
      · split
        · exact h.failOffer _ _ _
        · rename_i f hst; exact h.removeMember hc (by rw [hst]; rfl) _ _
        · rename_i f hst; exact h.removeMember hc (by rw [hst]; rfl) _ _

/-- After its departure from a slot a port takes no part in it (R45, R46). -/
theorem State.departConduit_channel_apart (hprod : ∀ ch, s.channel n = some ch → ch.producer ∉ ch.memberPorts)
    (h : (s.departConduit p n).channel n = some ch') : ch'.Apart p := by
  have ended : ∀ {r ps}, (s.failOffer n r ps).channel n = some ch' → ch'.Apart p := fun h => by
    rw [State.failOffer, State.teardown_channel, if_pos rfl] at h
    cases h
  have drained : ∀ {ch : Channel} {f : Flow}, s.channel n = some ch → ch.presentProducer p = true →
      ch.stage.flow? = some f → (((s.setChannel n (some { ch.drain with producerPresent := false })).appendEvents
        ch.memberPorts (.producerGone n)).drainCheck n).channel n = some ch' → ch'.Apart p :=
      fun {ch f} hc hp hf h => by
    have h := State.drainCheck_channel_some h
    rw [State.appendEvents_channel, State.setChannel_channel_self, Channel.drain_eq hf] at h
    cases h
    simp only [Channel.presentProducer, Bool.and_eq_true, beq_iff_eq] at hp
    exact ⟨by simp [Channel.presentProducer], hp.1 ▸ hprod ch hc⟩
  have removed : ∀ {ch : Channel} {f : Flow}, s.channel n = some ch → ¬ ch.presentProducer p = true →
      ch.stage.flow? = some f → (s.removeMember n p .departed).channel n = some ch' → ch'.Apart p :=
      fun hc hp hf h => by
    obtain ⟨x, hx, hk⟩ := ((Carries.refl s.Attached s).removeMember hc hf p .departed).slots n ch' h
    rw [hc] at hx
    cases hx
    exact ⟨hk.unproduced (by simpa using hp), State.removeMember_not_member h⟩
  unfold State.departConduit at h
  split at h
  · rename_i hc; rw [hc] at h; cases h
  · rename_i ch hc
    split at h
    · rename_i hp
      split at h
      · exact ended h
      · rename_i f hst; exact drained hc hp (by rw [hst]; rfl) h
      · rename_i f hst; exact drained hc hp (by rw [hst]; rfl) h
    · rename_i hp
      split at h
      · rename_i he
        rw [hc] at h
        cases h
        exact ⟨by simpa using hp, Channel.endpoint?_eq_none.1 he⟩
      · split at h
        · exact ended h
        · rename_i f hst; exact removed hc hp (by rw [hst]; rfl) h
        · rename_i f hst; exact removed hc hp (by rw [hst]; rfl) h

theorem Carries.departConduits (h : Carries A .nothing s t) (p : Port) :
    Carries A .nothing s (t.departConduits p) := by
  unfold State.departConduits
  induction allConduits generalizing t with
  | nil => exact h
  | cons n l ih => exact ih (h.departConduit p n)

/-- The slots visited by a departure, and those the port took no part in, are without it. -/
theorem State.departConduits_apart (l : List ConduitNo) :
    ∀ (s : State), (∀ n ch, s.channel n = some ch → ch.producer ∉ ch.memberPorts) → ∀ n,
      (n ∈ l ∨ ∀ ch, s.channel n = some ch → ch.Apart p) →
      ∀ ch, (l.foldl (fun s n => s.departConduit p n) s).channel n = some ch → ch.Apart p := by
  induction l with
  | nil => exact fun s _ n h => h.resolve_left List.not_mem_nil
  | cons m l ih =>
    intro s hprod n h
    have hstep := (Carries.refl s.Attached s).departConduit p m
    refine ih _ (fun k x hx hm => ?_) n ?_
    · obtain ⟨y, hy, hk⟩ := hstep.slots k x hx
      exact hprod k y hy (hk.producer ▸ hk.ports _ hm)
    · by_cases hnm : n = m
      · subst hnm
        exact .inr (fun x hx => State.departConduit_channel_apart (hprod n) hx)
      · obtain hn | hn := h
        · exact .inl ((List.mem_cons.1 hn).resolve_left hnm)
        · refine .inr (fun x hx => ?_)
          obtain ⟨y, hy, hk⟩ := hstep.slots n x hx
          exact hk.apart (hn y hy)

/-! #### Rows -/

/-- What a row does that places no offer and leaves the interval counter alone. -/
structure Kept (s t : State) : Prop where
  continued : Continued s t
  law : PortLaw s → ConduitLaw s → ConduitLaw t

theorem Carries.keeps_law (h : Carries s.Attached .nothing s t) (hl : ConduitLaw s) : ConduitLaw t := by
  have law := h.law (conduitLaw_iff.1 hl)
  exact conduitLaw_iff.2 ⟨fun n ch hc ho => (law.form n ch hc ho).attach (fun q _ => h.attached q)
    (fun _ => h.attached _), law.settled⟩

theorem Carries.kept (h : Carries s.Attached .nothing s t) : Kept s t := ⟨h.toContinued, fun _ => h.keeps_law⟩

theorem Kept.trans (a : Kept s t) (b : Carries t.Attached .nothing t u) : Kept s u :=
  ⟨a.continued.trans b.toContinued, fun hp hl => b.keeps_law (a.law hp hl)⟩

/-- The controller of a port that has left ATTACHED (R143). -/
def PortController.departed (c : PortController) (left : PortState) : PortController :=
  { c with state := left, outcome := OutcomeRecord.initial, rotation := 23 }

theorem State.depart_store (s : State) (p : Port) (cause : DepartureCause) (left : PortState) :
    SameStore ((s.setPort p ((s.port p).departed left)).departConduits p) (s.depart p cause left) :=
  (((State.departAttention_store _ p).trans (State.abandonProposal_store _ p)).trans
    (State.clearEvents_store _ p)).appendEvents _ _

theorem Carries.departAttention {o : Owed} (h : Carries A o s t) (p : Port) :
    Carries A o s (t.departAttention p) := by
  have cleared : Carries A o s ({ t with attention := t.attention.without p } : State) :=
    h.aside (attention_aside t _) rfl
  rw [State.departAttention_eq]
  exact cleared.aside (State.tell_surroundings _ _).aside rfl

theorem Carries.clearEvents {o : Owed} (h : Carries A o s t) (p : Port) : Carries A o s (t.clearEvents p) :=
  h.aside (.of_proposal (fun pr h => .inl ⟨pr, h, rfl⟩)) rfl

/-- Once its port has left ATTACHED, a departure keeps the law as it stood with the port ATTACHED. -/
theorem Carries.depart (A : Port → Prop) (s : State) (p : Port) (cause : DepartureCause) (left : PortState) :
    Carries A .nothing (s.setPort p ((s.port p).departed left)) (s.depart p cause left) := by
  have gone := Carries.refl A (s.setPort p ((s.port p).departed left))
  exact ((((gone.departConduits p).departAttention p).abandonProposal p).clearEvents p).appendEvents _ _

theorem State.depart_apart (cause : DepartureCause) (left : PortState)
    (hprod : ∀ n ch, s.channel n = some ch → ch.producer ∉ ch.memberPorts)
    (hc : (s.depart p cause left).channel n = some ch) : ch.Apart p := by
  rw [(s.depart_store p cause left).channel] at hc
  exact State.departConduits_apart allConduits (s.setPort p ((s.port p).departed left)) hprod n
    (.inl (mem_allConduits n)) ch hc

theorem Continued.setPort (s : State) (p : Port) (c : PortController) : Continued s (s.setPort p c) :=
  ⟨⟨rfl, rfl, fun pr h => .inl ⟨pr, h, rfl⟩⟩, fun _ => rfl, fun _ ch hc => ⟨ch, hc, .refl _ ch⟩⟩

/-- A departure keeps the law: the port takes part in no slot in the end, and no other leaves ATTACHED (R143). -/
theorem ConduitLaw.depart (hl : ConduitLaw s) (p : Port) (cause : DepartureCause) (left : PortState) :
    ConduitLaw (s.depart p cause left) := by
  have law : Lawful s.Attached .nothing (s.depart p cause left) :=
    (Carries.depart s.Attached s p cause left).law ⟨(conduitLaw_iff.1 hl).form, (conduitLaw_iff.1 hl).settled⟩
  have other {q : Port} (hq : q ≠ p) (ha : s.Attached q) : (s.depart p cause left).Attached q := by
    rw [State.Attached, State.depart_port_ne s hq]
    exact ha
  refine conduitLaw_iff.2 ⟨fun n ch hc ho => (law.form n ch hc ho).attach (fun q hq => other ?_) (fun hpp => other ?_),
    law.settled⟩
  all_goals
    have hapart := State.depart_apart cause left (fun n ch hc => (hl n ch hc).producerApart) hc
  · rintro rfl
    exact hapart.2 hq
  · rintro rfl
    simp [Channel.Apart, Channel.presentProducer, hpp] at hapart

theorem Kept.depart (s : State) (p : Port) (cause : DepartureCause) (left : PortState) :
    Kept s (s.depart p cause left) :=
  ⟨(Continued.setPort s p _).trans (Carries.depart s.Attached s p cause left).toContinued,
    fun _ hl => hl.depart p cause left⟩

/-! #### Offers -/

/-- What an accepted OFFER does to the slot it takes (R26, R31, R32). -/
structure Offered (n : ConduitNo) (s t : State) : Prop extends Clocked s t where
  free : s.channel n = none
  generation : (t.conduit n).generation = (s.conduit n).generation + 1
  elsewhere : ∀ m, m ≠ n → t.conduit m = s.conduit m
  offer : ∃ ch, t.channel n = some ch ∧ ch.stage = .offered (s.deadlineAfter 100) ∧ ∀ e ∈ ch.members, e.holds = []
  law : ConduitLaw s → ConduitLaw t

theorem memberSetValid_iff {ms : Byte} :
    memberSetValid p ms = true ↔ ms.toNat < 16 ∧ membersOf ms ≠ [] ∧ p ∉ membersOf ms := by
  simp [memberSetValid, and_assoc]

theorem membersOf_ascending (ms : Byte) : ((membersOf ms).map Port.toNat).Pairwise (· < ·) :=
  List.Pairwise.sublist (List.filter_sublist.map _) (l₂ := Port.all.map Port.toNat) (by decide)

/-- The use of a slot that an accepted OFFER begins (R31). -/
def Channel.offering (p : Port) (members : List Port) (cls : ConduitClass) (window size limit : Nat) (d : Tick) :
    Channel where
  producer := p
  producerPresent := true
  cls := cls
  requestedWindow := window
  requestedSize := size
  holdLimit := limit
  members := members.map Endpoint.initial
  stage := .offered d

theorem Channel.offering_ports (p : Port) (members : List Port) (cls : ConduitClass) (window size limit : Nat)
    (d : Tick) : (Channel.offering p members cls window size limit d).memberPorts = members := by
  rw [Channel.memberPorts, Channel.offering, List.map_map]
  exact List.map_id _

theorem ChannelForm.offering {ms : Byte} {cls : ConduitClass} {window size limit : Nat} {d : Tick}
    (hms : membersOf ms ≠ [] ∧ p ∉ membersOf ms) (hm : ∀ m ∈ membersOf ms, A m) (hp : A p)
    (hr : 1 ≤ window ∧ window ≤ 16 ∧ 1 ≤ size ∧ size ≤ 1024 ∧ limit ≤ 1000) :
    ChannelForm A (.offering p (membersOf ms) cls window size limit d) := by
  have hports := Channel.offering_ports p (membersOf ms) cls window size limit d
  have hinitial : ∀ e ∈ (Channel.offering p (membersOf ms) cls window size limit d).members,
      ∃ m, e = Endpoint.initial m := fun e he => by
    obtain ⟨m, -, rfl⟩ := List.mem_map.1 he
    exact ⟨m, rfl⟩
  obtain ⟨m, hmem⟩ := List.exists_mem_of_ne_nil _ hms.1
  refine ⟨⟨by simpa [Channel.offering] using hms.1, by rw [hports]; exact membersOf_ascending ms,
    by rw [hports]; exact hms.2, by rw [hports]; exact hm,
    fun _ => hp, hr, fun e he w z ha => ?_, fun e he => ?_⟩,
    fun _ _ => ⟨rfl, ⟨_, List.mem_map_of_mem hmem, rfl⟩, fun e he => ?_⟩, nofun, nofun, nofun⟩
  all_goals obtain ⟨m, rfl⟩ := hinitial e he
  · cases ha
  · exact ⟨Nat.zero_le 4, Nat.zero_le 4⟩
  · exact ⟨rfl, rfl, rfl⟩

theorem State.makeOffer_conduit (s : State) (n : ConduitNo) (p : Port) (members : List Port) (cls : ConduitClass)
    (window size limit : Nat) (m : ConduitNo) : (s.makeOffer n p members cls window size limit).conduit m =
      if m = n then
        { generation := (s.conduit n).generation + 1
          channel := some (.offering p members cls window size limit (s.deadlineAfter 100)) }
      else s.conduit m := by
  simp only [State.makeOffer, State.conduit, State.appendEvents_conduits, Fin.getElem_fin, Vector.getElem_set,
    Fin.ext_iff, eq_comm]
  rfl

theorem State.makeOffer_surroundings (s : State) (n : ConduitNo) (p : Port) (members : List Port) (cls : ConduitClass)
    (window size limit : Nat) : SameSurroundings s (s.makeOffer n p members cls window size limit) := by
  have offered (c : Vector Conduit 24) : SameSurroundings s { s with conduits := c } := ⟨rfl, rfl, rfl, rfl, rfl, rfl⟩
  exact (offered _).trans (State.appendEvents_surroundings _ _ _)

theorem State.makeOffer_offered {ms : Byte} {cls : ConduitClass} {window size limit : Nat} (hfree : s.channel n = none)
    (hms : membersOf ms ≠ [] ∧ p ∉ membersOf ms) (hm : ∀ m ∈ membersOf ms, s.Attached m) (hp : s.Attached p)
    (hr : 1 ≤ window ∧ window ≤ 16 ∧ 1 ≤ size ∧ size ≤ 1024 ∧ limit ≤ 1000) :
    Offered n s (s.makeOffer n p (membersOf ms) cls window size limit) := by
  have aside : Aside s (s.makeOffer n p (membersOf ms) cls window size limit) :=
    (State.makeOffer_surroundings s n p _ cls window size limit).aside
  have hconduit := s.makeOffer_conduit n p (membersOf ms) cls window size limit
  have hself := hconduit n
  rw [if_pos rfl] at hself
  refine ⟨aside.toClocked, hfree, by rw [hself], fun m hm => by rw [hconduit, if_neg hm],
    ⟨_, by rw [State.channel, hself], rfl, fun e he => ?_⟩, fun hl => conduitLaw_iff.2 ?_⟩
  · obtain ⟨m, -, rfl⟩ := List.mem_map.1 he
    rfl
  · have law := conduitLaw_iff.1 hl
    have hform : ∀ m ch, (s.makeOffer n p (membersOf ms) cls window size limit).channel m = some ch →
        ChannelForm s.Attached ch ∧ ch.Settled := fun m ch hc => by
      rw [State.channel, hconduit] at hc
      split at hc
      · cases hc
        exact ⟨.offering hms hm hp hr, nofun⟩
      · exact ⟨law.form m ch hc nofun, law.settled m ch hc nofun nofun⟩
    exact ⟨fun m ch hc _ => (hform m ch hc).1.attach (fun q _ => aside.attached q) (fun _ => aside.attached _),
      fun m ch hc _ _ => (hform m ch hc).2⟩

/-- An OFFER changes nothing where it is refused, and offers the slot it takes where it is accepted (R30, R31). -/
theorem offerAnswer_offered (hp : s.Attached p) (ms cls w : Byte) (sz hl : Half) :
    (offerAnswer p ms cls w sz hl s).state = s ∨ ∃ n, Offered n s (offerAnswer p ms cls w sz hl s).state := by
  unfold offerAnswer
  split
  · exact .inl rfl
  · rename_i hms
    split
    · exact .inl rfl
    · rename_i hm
      split
      · exact .inl rfl
      · split
        · exact .inl rfl
        · rename_i hr
          split
          · exact .inl rfl
          · split
            · exact .inl rfl
            · rename_i n hn
              simp only [Bool.not_eq_true', Bool.not_eq_false, memberSetValid_iff, List.all_eq_true,
                decide_eq_true_eq, Bool.and_eq_true, windowValid_iff, sizeValid_iff, holdLimitValid_iff] at hms hm hr
              exact .inr ⟨n, State.makeOffer_offered (by simpa using List.find?_some hn) hms.2 hm hp
                ⟨hr.1.1.1, hr.1.1.2, hr.1.2.1, hr.1.2.2, hr.2⟩⟩

theorem Offered.trans (a : Offered n s t) (b : Aside t u) (hc : u.conduits = t.conduits) : Offered n s u where
  toClocked := a.toClocked.trans b.toClocked
  free := a.free
  generation := by rw [State.conduit, hc]; exact a.generation
  elsewhere m hm := by rw [State.conduit, hc]; exact a.elsewhere m hm
  offer := by rw [State.channel_ext hc]; exact a.offer
  law hl := Carries.keeps_law ((Carries.refl t.Attached t).aside b hc) (a.law hl)

/-! #### The acceptance instant -/

/-- The outcome record and the reply are all that is written behind an answer (R153). -/
theorem State.accept_aside (p : Port) (c : Command) (named : Option ConduitNo) (x : Transaction) (a : Answer) :
    Aside a.state (State.accept p c named x a) ∧ (State.accept p c named x a).conduits = a.state.conduits := by
  have written : Aside a.state (a.state.writeOutcome p c a named) ∧
      (a.state.writeOutcome p c a named).conduits = a.state.conduits := by
    unfold State.writeOutcome
    split
    · exact ⟨.refl _, rfl⟩
    · exact ⟨State.setPort_aside id, rfl⟩
  exact ⟨written.1.trans (State.setPort_aside id), written.2⟩

/-- A command frame changes nothing, is payload, or is answered: by a refusal, or by the owning block where the port
state admits the command (R154). -/
theorem State.transact_elim {Q : State → Prop} {c : Command} {args : List Byte} {named : Option ConduitNo}
    {owner : State → Answer} (same : Q s) (payload : ∀ bytes, Q (s.receivePayload p bytes))
    (refused : ∀ x o, Q (State.accept p c named x (refuse s o)))
    (answered : ∀ x shown, s.shownState p = some shown → admission c shown = none →
      Q (State.accept p c named x (owner s))) : Q (s.transact p c args named owner) := by
  unfold State.transact
  split
  · rename_i shown x hshown _
    have frame : Q (if x.phase.continuedBy c.code args then
        match admission c shown with
        | some refusal => State.accept p c named x (refuse s refusal)
        | none => State.accept p c named x (owner s)
      else s) := by
      split
      · split
        · exact refused x _
        · rename_i hadm; exact answered x shown hshown hadm
      · exact same
    split
    · exact same
    · exact payload _
    · exact frame
    · exact frame
  · exact same

theorem Kept.transact {c : Command} {args : List Byte} {named : Option ConduitNo} {owner : State → Answer}
    (ho : Kept s (owner s).state) : Kept s (s.transact p c args named owner) := by
  have accepted : ∀ x a, Kept s a.state → Kept s (State.accept p c named x a) := fun x a h =>
    h.trans ((Carries.refl _ _).aside (State.accept_aside p c named x a).1 (State.accept_aside p c named x a).2)
  exact State.transact_elim (Carries.refl _ s).kept (fun _ => ((Carries.refl _ s).receivePayload p _).kept)
    (fun x o => accepted x _ (Carries.refl _ s).kept) (fun x _ _ _ => accepted x _ ho)

theorem State.attached_of_shown (h : s.shownState p = some .attached) : s.Attached p := by
  unfold State.shownState at h
  cases hp : (s.port p).state with
  | attached => exact hp
  | detached => simp [hp] at h
  | held => simp [hp] at h

/-- OFFER places an offer on a FREE slot, or carries everything on (R30, R31). -/
theorem execOffer_effect {ms cls w : Byte} {sz hl : Half} (h : execOffer p ms cls w sz hl s = .next t) :
    Kept s t ∨ ∃ n, Offered n s t := by
  cases h
  have accepted : ∀ x a, (a.state = s ∨ ∃ n, Offered n s a.state) →
      Kept s (State.accept p .offer none x a) ∨ ∃ n, Offered n s (State.accept p .offer none x a) := fun x a ha => by
    obtain ⟨haside, hcon⟩ := State.accept_aside p .offer none x a
    obtain ha | ⟨n, ha⟩ := ha
    · rw [ha] at haside hcon
      exact .inl ((Carries.refl _ s).aside haside hcon).kept
    · exact .inr ⟨n, ha.trans haside hcon⟩
  refine State.transact_elim (Q := fun t => Kept s t ∨ ∃ n, Offered n s t) (.inl (Carries.refl _ s).kept)
    (fun _ => .inl ((Carries.refl _ s).receivePayload p _).kept) (fun x o => accepted x _ (.inl rfl))
    (fun x shown hshown hadm => ?_)
  cases shown with
  | starting => cases hadm
  | detached => cases hadm
  | attached => exact accepted x _ (offerAnswer_offered (State.attached_of_shown hshown) ms cls w sz hl)

/-! #### The port reset line and select -/

theorem Carries.setResetLine {o : Owed} (h : Carries A o s t) (p : Port) (asserted : Bool) :
    Carries A o s (t.setResetLine p asserted) := h.setPort id

theorem Carries.resetOutcome {o : Owed} (h : Carries A o s t) (p : Port) : Carries A o s (t.resetOutcome p) :=
  h.setPort id

theorem State.abort_state (s : State) (p : Port) : ((s.abort p).port p).state = (s.port p).state := by
  obtain ⟨h, -, ha⟩ | ⟨h, ha⟩ | ha := s.abort_cases p
  · rw [ha, State.setPort_port_self]
    simp only [State.port, (s.freeDescriptor_surroundings h).ports]
  · rw [ha, State.setPort_port_self]
  · rw [ha, State.setPort_port_self]

theorem Kept.portResetAsserted (h : execPortResetAsserted p s = .next t) : Kept s t := by
  unfold execPortResetAsserted at h
  simp only [Host.Outcome.next.injEq] at h
  subst h
  have aborted : Carries s.Attached .nothing s (s.abort p) := (Carries.refl _ s).abort p
  split
  · have departed : Kept s ((s.abort p).depart p .reset .held) :=
      ⟨aborted.toContinued.trans (Kept.depart _ p .reset .held).continued,
        fun _ hl => (aborted.keeps_law hl).depart p .reset .held⟩
    exact departed.trans ((Carries.refl _ _).setResetLine p true)
  · rename_i hst
    have hno : ¬ (s.abort p).Attached p := fun ha => by
      rw [State.Attached, State.abort_state, hst] at ha
      cases ha
    exact ((aborted.setPort (fun ha => absurd ha hno)).setResetLine p true).kept
  · split
    · exact ((((Carries.refl _ s).endTransaction p).resetOutcome p).setResetLine p true).kept
    · exact ((Carries.refl _ s).setResetLine p true).kept

/-- A release in operation lets its port be DETACHED, which was HELD and in no slot (R142). -/
theorem Kept.portResetReleased (h : execPortResetReleased p s = .next t) : Kept s t := by
  unfold execPortResetReleased at h
  simp only [Host.Outcome.next.injEq] at h
  subst h
  split
  · rename_i hline
    split
    · refine ⟨(Continued.setPort s p _).trans (Continued.setPort _ p _), fun hp hl => ?_⟩
      have hno : ¬ s.Attached p := fun ha => by
        rw [State.Attached, hp.heldByReset p hline] at ha
        cases ha
      exact (((Carries.refl _ s).setPort (fun ha => absurd ha hno)).setResetLine p false).keeps_law hl
    · exact ((Carries.refl _ s).setResetLine p false).kept
    · exact ((Carries.refl _ s).setResetLine p false).kept
  · exact (Carries.refl _ s).kept

theorem Kept.selectAsserted (h : execSelectAsserted p s = .next t) : Kept s t := by
  unfold execSelectAsserted at h
  simp only [Host.Outcome.next.injEq] at h
  subst h
  split
  · exact (Carries.refl _ s).kept
  · exact Carries.kept (Carries.setPort ((Carries.refl _ s).releaseSelect p) id)

theorem Carries.refuseCode (A : Port → Prop) (s : State) (p : Port) (code : Byte) :
    Carries A .nothing s (s.refuseCode p code) := by
  unfold State.refuseCode
  split
  · split
    · exact .refl A s
    · exact .refl A s
    · exact (Carries.refl A s).receivePayload p _
    · exact (Carries.refl A s).setPort id
  · exact .refl A s

theorem Carries.refuseTruncated (A : Port → Prop) (s : State) (p : Port) (code : Byte) (args : List Byte) :
    Carries A .nothing s (s.refuseTruncated p code args) := by
  unfold State.refuseTruncated
  split
  · split
    · exact (Carries.refl A s).setPort id
    · exact .refl A s
  · exact .refl A s

/-! #### All rows -/

/-- What each row does: most carry everything on, OFFER may place an offer, and the rows of the Time Base that reset the
part or move the interval counter stand for themselves. -/
inductive Effect (s t : State) : Instr → Prop where
  | kept {i : Instr} (h : Kept s t) : Effect s t i
  | offered {n : ConduitNo} {p : Port} {ms cl w : Byte} {sz hl : Half} (h : Offered n s t) :
      Effect s t (.offer p ms cl w sz hl)
  | reset (h : t = s.globalReset) : Effect s t .globalResetAsserted
  | advanced (h : t = s.advance) : Effect s t .intervalAdvance
  | started (hs : s.time.reset = .startUp) (h : t = s.endStartUp) : Effect s t .endOfStartUp

theorem exec_effect {i : Instr} (h : exec i s = .next t) : Effect s t i := by
  have carried {u : State} (hu : Carries s.Attached .nothing s u)
      (hi : Host.Outcome.next u = (.next t : Host.Outcome State Fault Refusal)) : Effect s t i := by
    cases hi
    exact .kept hu.kept
  have command {p : Port} {c : Command} {args : List Byte} {named : Option ConduitNo} {owner : State → Answer}
      (ho : Carries s.Attached .nothing s (owner s).state)
      (hi : Host.Outcome.next (s.transact p c args named owner) = (.next t : Host.Outcome State Fault Refusal)) :
      Effect s t i := by
    cases hi
    exact .kept (Kept.transact ho.kept)
  have same : Carries s.Attached .nothing s s := .refl _ s
  cases i with
  | status p => exact command same h
  | attach p => exact command (s.attach_carries p) h
  | detach p => cases h; exact .kept (Kept.transact (Kept.depart s p _ _))
  | nextEvent p => exact command (nextEventAnswer_carries p s) h
  | offer p ms cl w sz hl =>
    obtain hk | ⟨n, ho⟩ := execOffer_effect h
    · exact .kept hk
    · exact .offered ho
  | answer p c g ch wl sl => exact command (answerAnswer_carries p c g ch wl sl s) h
  | close p c => exact command (closeAnswer_carries p c s) h
  | leave p c => exact command (leaveAnswer_carries p c s) h
  | flush p c => exact command (flushAnswer_carries p c s) h
  | conduitInfo p c => exact command (by rw [State.conduitInfo_state]; exact same) h
  | post p c len => exact command (postAnswer_carries p c len s) h
  | take p c => exact command (takeAnswer_carries p c s) h
  | takeAny p => exact command (takeAnyAnswer_carries p s) h
  | peek p c => exact command (peekAnswer_carries p c s) h
  | readHeld p c q => exact command (readHeldAnswer_carries p c q s) h
  | release p c q => exact command (releaseAnswer_carries p c q s) h
  | attend p t v a => exact command (attendAnswer_carries p t v a s) h
  | acceptAttn p => exact command (acceptAttnAnswer_carries p s) h
  | withdrawAttn p t => exact command (withdrawAttnAnswer_carries p t s) h
  | propose p q => exact command (proposeAnswer_carries p q s) h
  | vote p id ch => exact command (voteAnswer_carries p id ch s) h
  | cancelProposal p id => exact command (cancelProposalAnswer_carries p id s) h
  | readPartition p => exact command same h
  | poolInfo p => exact command same h
  | segmentInfo p x => exact command same h
  | badCommand p code =>
    simp only [exec, execBadCommand] at h
    split at h
    · exact carried (.refuseCode _ s p code) h
    · cases h
  | truncated p code args =>
    simp only [exec, execTruncated] at h
    split at h
    · split at h
      · exact carried (.refuseTruncated _ s p code args) h
      · cases h
    · cases h
  | fillCompletion p bytes =>
    refine carried ?_ h
    split
    · exact (same.receivePayload p bytes).releaseSelect p
    · exact same
  | transferEnd p => exact carried (same.releaseSelect p) h
  | portResetAsserted p => exact .kept (Kept.portResetAsserted h)
  | portResetReleased p => exact .kept (Kept.portResetReleased h)
  | globalResetAsserted => cases h; exact .reset rfl
  | globalResetReleased =>
    refine carried ?_ h
    split
    · exact same.aside ⟨⟨rfl, rfl, fun pr hp => .inl ⟨pr, hp, rfl⟩⟩, fun _ h => h⟩ rfl
    · exact same
  | intervalAdvance => cases h; exact .advanced rfl
  | endOfStartUp =>
    simp only [exec, execEndOfStartUp, Host.Outcome.next.injEq] at h
    split at h
    · rename_i hs; exact .started hs h.symm
    · cases h; exact .kept same.kept
  | offerLapse n => exact carried (same.lapseOffer n) h
  | proposalLapse => exact carried same.lapseProposal h
  | holdLapse n p q => exact carried (same.lapseHold n p q) h
  | selectAsserted p => exact .kept (Kept.selectAsserted h)

end CarryingRows

end Sys2Proof.Machine

/-! ### The law of the slots and the generations, step by step -/

namespace Sys2Proof.Machine

section SlotSteps

variable {s t : State} {n : ConduitNo} {p : Port}

theorem ConduitLaw.congr (hl : ConduitLaw s) (ha : ∀ q, s.Attached q → t.Attached q) (hc : t.conduits = s.conduits) :
    ConduitLaw t := by
  have law := conduitLaw_iff.1 hl
  refine conduitLaw_iff.2 ⟨fun n ch hch ho => ?_, fun n ch hch ho ho' => ?_⟩
  all_goals rw [State.channel_ext hc] at hch
  · exact (law.form n ch hch ho).attach (fun q _ => ha q) (fun _ => ha _)
  · exact law.settled n ch hch ho ho'

theorem ConduitLaw.of_pending {rest : List Instr} (hl : ConduitLaw s) : ConduitLaw { s with pending := rest } :=
  hl.congr (fun _ h => h) rfl

/-! #### Time -/

theorem State.takeExpiry_time (s : State) (x : Expiry) : (s.takeExpiry x).time = s.time := by
  cases x with
  | offer n => exact (s.lapseOffer_surroundings n).time
  | hold n p q => exact (s.lapseHold_surroundings n p q).time
  | proposal =>
    simp only [State.takeExpiry, State.lapseProposal]
    split
    · rfl
    · split
      · exact (State.appendEvents_surroundings _ _ _).time
      · rfl

/-- The law of the slots, with no port ATTACHED before operation (R142, R184). -/
def SlotsInTime (s : State) : Prop := ConduitLaw s ∧ (s.time.reset ≠ .running → ∀ q, ¬ s.Attached q)

theorem PortLaw.slotsInTime (hp : PortLaw s) (hl : ConduitLaw s) : SlotsInTime s :=
  ⟨hl, fun hr q ha => by rw [State.Attached, hp.heldBeforeOperation hr q] at ha; cases ha⟩

/-- Before operation every slot is FREE, since its members would be ATTACHED. -/
theorem SlotsInTime.free (h : SlotsInTime s) (hr : s.time.reset ≠ .running) (n : ConduitNo) : s.channel n = none := by
  cases hc : s.channel n with
  | none => rfl
  | some ch =>
    obtain ⟨e, he⟩ := List.exists_mem_of_ne_nil _ (List.length_pos_iff.1 (h.1 n ch hc).members.1)
    exact absurd ((h.1 n ch hc).membersAttached e.port (List.mem_map_of_mem he)) (h.2 hr e.port)

theorem SlotsInTime.takeExpiry (h : SlotsInTime s) (x : Expiry) : SlotsInTime (s.takeExpiry x) := by
  refine ⟨((Carries.refl _ s).takeExpiry x).keeps_law h.1, fun hr q ha => ?_⟩
  rw [s.takeExpiry_time] at hr
  rw [State.Attached, State.port_congr (s.takeExpiry_ports x)] at ha
  exact h.2 hr q ha

/-- The start-up interval ends with every slot FREE, and otherwise the counting of time leaves ports and slots alone. -/
theorem SlotsInTime.countAdvance (h : SlotsInTime s) : SlotsInTime s.countAdvance := by
  unfold State.countAdvance
  split
  · exact h
  · rename_i hr
    refine ⟨fun n ch hc => ?_, fun hr' => absurd rfl hr'⟩
    have hfree := h.free (by rw [hr]; nofun) n
    exact absurd (hfree.symm.trans hc) nofun
  · rename_i hr
    exact ⟨h.1.congr (fun _ ha => ha) rfl, fun hr' => absurd hr hr'⟩

theorem SlotsInTime.advance (h : SlotsInTime s) : SlotsInTime s.advance :=
  s.advance_keeps (fun _ x h => h.takeExpiry x) (fun _ _ h => ⟨h.1.congr (fun _ ha => ha) rfl, h.2⟩)
    (fun _ h => h.countAdvance) h

theorem SlotsInTime.referencePeriod (h : SlotsInTime s) : SlotsInTime s.referencePeriod :=
  s.referencePeriod_keeps (fun _ x h => h.takeExpiry x) (fun _ _ h => ⟨h.1.congr (fun _ ha => ha) rfl, h.2⟩)
    (fun _ h => h.countAdvance) (fun _ _ h => ⟨h.1.congr (fun _ ha => ha) rfl, h.2⟩) h

/-! #### Rows -/

theorem exec_conduits {i : Instr} (hp : PortLaw s) (hl : ConduitLaw s) (hi : exec i s = .next t) : ConduitLaw t := by
  cases exec_effect hi with
  | kept h => exact h.law hp hl
  | offered h => exact h.law hl
  | reset h => subst h; exact fun n ch hc => absurd ((channel_of_initial rfl n).symm.trans hc) nofun
  | advanced h => subst h; exact (hp.slotsInTime hl).advance.1
  | started hs h =>
    subst h
    have := (hp.slotsInTime hl).countAdvance.1
    rwa [State.countAdvance, hs] at this

/-! #### Generations -/

theorem State.advance_generations (s : State) (n : ConduitNo) :
    ((s.advance).conduit n).generation = (s.conduit n).generation :=
  s.advance_keeps (P := fun t => (t.conduit n).generation = (s.conduit n).generation)
    (fun t x h => (((Carries.refl t.Attached t).takeExpiry x).generations n).trans h) (fun _ _ h => h)
    (fun t h => by rw [State.conduit, t.countAdvance_store.conduits]; exact h) rfl

end SlotSteps

end Sys2Proof.Machine

open Sys2Proof Sys2Proof.Machine in
/-- Settles O12: inside a row at most one slot owes its drain check or its end, and the row makes up for it. -/
theorem everyStepKeepsTheConduitLaw : Obligations.EveryStepKeepsTheConduitLaw := by
  intro s t hp hl hstep
  obtain ⟨-, rfl⟩ | ⟨i, rest, -, hi⟩ := step_cases hstep
  · exact (hp.slotsInTime hl).referencePeriod.1
  · exact exec_conduits hp.of_pending hl.of_pending hi

open Sys2Proof Sys2Proof.Machine in
/-- Settles O20: every row but an accepted OFFER and a global reset carries the generations on. -/
theorem generationMovesOnlyAtAnOffer : Obligations.GenerationMovesOnlyAtAnOffer := by
  intro i s t n hi hreset
  cases exec_effect hi with
  | kept h => exact .inl (h.continued.generations n)
  | @offered m p ms cl w sz hl h =>
    by_cases hn : n = m
    · subst hn
      obtain ⟨ch, hc, -⟩ := h.offer
      exact .inr ⟨h.generation, h.free, by rw [hc]; rfl, p, ms, cl, w, sz, hl, rfl⟩
    · exact .inl (by rw [h.elsewhere n hn])
  | reset => exact absurd rfl hreset
  | advanced h => subst h; exact .inl (s.advance_generations n)
  | started hs h => subst h; exact .inl rfl

open Sys2Proof Sys2Proof.Machine in
/-- Settles O25: both effective values are minima of a list (R35). -/
theorem effectiveValuesAreMinima : Obligations.EffectiveValuesAreMinima := by
  intro ch
  obtain ⟨hw, hwall, hwin⟩ := least_of_answers ch.smallestWindow_min
  obtain ⟨hz, hzall, hzin⟩ := least_of_answers ch.smallestSize_min
  refine ⟨⟨hw, fun e he w z ha => hwall e he w (Answered.windowLimit?_eq_some.2 ⟨z, ha⟩), hwin.imp_right ?_⟩,
    hz, fun e he w z ha => hzall e he z (Answered.sizeLimit?_eq_some.2 ⟨w, ha⟩), hzin.imp_right ?_⟩
  · rintro ⟨e, he, ha⟩
    obtain ⟨z, ha⟩ := Answered.windowLimit?_eq_some.1 ha
    exact ⟨e, he, _, z, ha, rfl⟩
  · rintro ⟨e, he, ha⟩
    obtain ⟨w, ha⟩ := Answered.sizeLimit?_eq_some.1 ha
    exact ⟨e, he, w, _, ha, rfl⟩

/-! ### Placed deadlines -/

namespace Sys2Proof.Machine

section Deadlines

variable {s t u : State} {n : ConduitNo} {p : Port} {q : Half} {d : Tick} {x : Expiry} {ch : Channel}

/-- A deadline is placed for its owner with this target (R180). -/
def State.Places (s : State) (x : Expiry) (d : Tick) : Prop := (x, d) ∈ s.placedDeadlines

/-- The deadlines the use of a slot has placed (R180). -/
def Channel.deadlines (n : ConduitNo) (ch : Channel) : List (Expiry × Tick) :=
  (match ch.stage with
    | .offered d => [(.offer n, d)]
    | .opened _ | .draining _ => []) ++
  ch.members.flatMap (fun e => e.holds.filterMap (fun h =>
    h.deadline.map (fun target => (.hold n e.port h.sequence, target))))

theorem State.slotDeadlines_of_none (hc : s.channel n = none) : s.slotDeadlines n = [] := by
  simp only [State.slotDeadlines, hc]

theorem State.slotDeadlines_of_some (hc : s.channel n = some ch) : s.slotDeadlines n = ch.deadlines n := by
  simp only [State.slotDeadlines, hc]
  rfl

theorem Channel.mem_deadlines_offer {m : ConduitNo} :
    (.offer m, d) ∈ ch.deadlines n ↔ m = n ∧ ch.stage = .offered d := by
  unfold Channel.deadlines
  cases ch.stage <;> simp [eq_comm]

theorem Channel.mem_deadlines_hold {m : ConduitNo} : (.hold m p q, d) ∈ ch.deadlines n ↔
    m = n ∧ ∃ e ∈ ch.members, e.port = p ∧ ∃ h ∈ e.holds, h.sequence = q ∧ h.deadline = some d := by
  have hoffer : (.hold m p q, d) ∉ (match ch.stage with
      | .offered d => [(Expiry.offer n, d)]
      | .opened _ | .draining _ => []) := by
    cases ch.stage <;> simp
  simp only [Channel.deadlines, List.mem_append, hoffer, false_or, List.mem_flatMap, List.mem_filterMap,
    Option.map_eq_some_iff, Prod.mk.injEq, Expiry.hold.injEq]
  constructor
  · rintro ⟨e, he, h, hh, target, ht, ⟨rfl, rfl, rfl⟩, rfl⟩
    exact ⟨rfl, e, he, rfl, h, hh, rfl, ht⟩
  · rintro ⟨rfl, e, he, rfl, h, hh, rfl, ht⟩
    exact ⟨e, he, h, hh, d, ht, ⟨rfl, rfl, rfl⟩, rfl⟩

theorem Channel.proposal_not_mem_deadlines : (.proposal, d) ∉ ch.deadlines n := by
  unfold Channel.deadlines
  cases ch.stage <;> simp

theorem State.mem_slotDeadlines {y : Expiry × Tick} :
    y ∈ s.slotDeadlines n ↔ ∃ ch, s.channel n = some ch ∧ y ∈ ch.deadlines n := by
  cases hc : s.channel n with
  | none => simp [State.slotDeadlines_of_none hc]
  | some ch => simp [State.slotDeadlines_of_some hc]

/-- A slot, or the proposal, has placed the deadline. -/
theorem State.places_iff : s.Places x d ↔
    (∃ pr, s.partition.proposal = some pr ∧ x = .proposal ∧ pr.deadline = d) ∨
      ∃ n ch, s.channel n = some ch ∧ (x, d) ∈ ch.deadlines n := by
  unfold State.Places State.placedDeadlines
  rw [List.mem_append, List.mem_flatMap]
  refine or_congr ?_ ⟨fun ⟨n, _, h⟩ => ⟨n, State.mem_slotDeadlines.1 h⟩,
    fun ⟨n, h⟩ => ⟨n, mem_allConduits n, State.mem_slotDeadlines.2 h⟩⟩
  cases s.partition.proposal <;> simp [eq_comm]

theorem State.places_offer : s.Places (.offer n) d ↔ ∃ ch, s.channel n = some ch ∧ ch.stage = .offered d := by
  rw [State.places_iff]
  constructor
  · rintro (⟨_, _, h, _⟩ | ⟨m, ch, hc, h⟩)
    · cases h
    · obtain ⟨rfl, hst⟩ := Channel.mem_deadlines_offer.1 h
      exact ⟨ch, hc, hst⟩
  · exact fun ⟨ch, hc, h⟩ => .inr ⟨n, ch, hc, Channel.mem_deadlines_offer.2 ⟨rfl, h⟩⟩

theorem State.places_proposal : s.Places .proposal d ↔ ∃ pr, s.partition.proposal = some pr ∧ pr.deadline = d := by
  rw [State.places_iff]
  constructor
  · rintro (⟨pr, hpr, _, h⟩ | ⟨m, ch, hc, h⟩)
    · exact ⟨pr, hpr, h⟩
    · exact absurd h Channel.proposal_not_mem_deadlines
  · exact fun ⟨pr, hpr, h⟩ => .inl ⟨pr, hpr, rfl, h⟩

theorem State.places_hold : s.Places (.hold n p q) d ↔ ∃ ch, s.channel n = some ch ∧
    ∃ e ∈ ch.members, e.port = p ∧ ∃ h ∈ e.holds, h.sequence = q ∧ h.deadline = some d := by
  rw [State.places_iff]
  constructor
  · rintro (⟨_, _, h, _⟩ | ⟨m, ch, hc, h⟩)
    · cases h
    · obtain ⟨rfl, hheld⟩ := Channel.mem_deadlines_hold.1 h
      exact ⟨ch, hc, hheld⟩
  · exact fun ⟨ch, hc, h⟩ => .inr ⟨n, ch, hc, Channel.mem_deadlines_hold.2 ⟨rfl, h⟩⟩

/-! #### Deadlines that are kept or placed anew -/

/-- The interval counter and the queue stay, and what is placed was placed before, under the limit it had, or is placed
now. -/
structure Placing (s t : State) : Prop where
  counter : t.time.counter = s.time.counter
  pending : t.pending = s.pending
  placed : ∀ x d, t.Places x d → (s.Places x d ∧ t.limitOf x = s.limitOf x) ∨ d = s.deadlineAfter (t.limitOf x)

theorem State.limitOf_hold (hc : s.channel n = some ch) (p : Port) (q : Half) :
    s.limitOf (.hold n p q) = ch.holdLimit := by
  simp only [State.limitOf, hc]

theorem Continued.placing (h : Continued s t) : Placing s t where
  counter := h.counter
  pending := h.pending
  placed x d hx := by
    cases x with
    | offer n =>
      obtain ⟨ch', hc', hst⟩ := State.places_offer.1 hx
      obtain ⟨ch, hc, hk⟩ := h.slots n ch' hc'
      exact .inl ⟨State.places_offer.2 ⟨ch, hc, hk.offered d hst⟩, rfl⟩
    | proposal =>
      obtain ⟨pr', hpr', rfl⟩ := State.places_proposal.1 hx
      obtain ⟨pr, hpr, hd⟩ | hd := h.proposal pr' hpr'
      · exact .inl ⟨State.places_proposal.2 ⟨pr, hpr, hd.symm⟩, rfl⟩
      · exact .inr hd
    | hold n p q =>
      obtain ⟨ch', hc', e', he', rfl, w, hw, rfl, hd⟩ := State.places_hold.1 hx
      obtain ⟨ch, hc, hk⟩ := h.slots n ch' hc'
      rw [State.limitOf_hold hc', State.limitOf_hold hc, hk.limit]
      obtain ⟨e, he, hp, hwe⟩ | hnew := hk.holds e' he' w hw
      · exact .inl ⟨State.places_hold.2 ⟨ch, hc, e, he, hp, w, hwe, rfl, hd⟩, rfl⟩
      · exact .inr (hnew d hd)

theorem Offered.placing (h : Offered n s t) : Placing s t where
  counter := h.counter
  pending := h.pending
  placed x d hx := by
    obtain ⟨ch, hch, hst, hholds⟩ := h.offer
    have other {m : ConduitNo} (hm : m ≠ n) : t.channel m = s.channel m := by
      rw [State.channel, h.elsewhere m hm]; rfl
    cases x with
    | proposal =>
      obtain ⟨pr', hpr', rfl⟩ := State.places_proposal.1 hx
      obtain ⟨pr, hpr, hd⟩ | hd := h.proposal pr' hpr'
      · exact .inl ⟨State.places_proposal.2 ⟨pr, hpr, hd.symm⟩, rfl⟩
      · exact .inr hd
    | offer m =>
      obtain ⟨c, hc, hd⟩ := State.places_offer.1 hx
      by_cases hm : m = n
      · subst hm
        rw [hch] at hc
        cases hc
        rw [hst] at hd
        cases hd
        exact .inr rfl
      · exact .inl ⟨State.places_offer.2 ⟨c, by rw [← other hm]; exact hc, hd⟩, rfl⟩
    | hold m p q =>
      obtain ⟨c, hc, e, he, hrest⟩ := State.places_hold.1 hx
      by_cases hm : m = n
      · subst hm
        rw [hch] at hc
        cases hc
        obtain ⟨-, w, hw, -⟩ := hrest
        rw [hholds e he] at hw
        cases hw
      · have hc' : s.channel m = some c := by rw [← other hm]; exact hc
        exact .inl ⟨State.places_hold.2 ⟨c, hc', e, he, hrest⟩, by
          rw [State.limitOf_hold hc, State.limitOf_hold hc']⟩

/-! #### Time remaining -/

theorem State.timeRemaining_congr (h : t.time.counter = s.time.counter) (d : Tick) :
    t.timeRemaining d = s.timeRemaining d := by simp only [State.timeRemaining, h]

theorem State.timeRemaining_after (s : State) (limit : Nat) :
    s.timeRemaining (s.deadlineAfter limit) = (limit + 1) % 2 ^ 32 := by
  have : s.time.counter + BitVec.ofNat 32 (limit + 1) - s.time.counter = BitVec.ofNat 32 (limit + 1) := by
    rw [BitVec.add_comm, BitVec.add_sub_cancel]
  rw [State.timeRemaining, State.deadlineAfter, this, BitVec.toNat_ofNat]

theorem State.timeRemaining_eq_zero : s.timeRemaining d = 0 ↔ d = s.time.counter := by
  unfold State.timeRemaining
  bv_omega

theorem State.timeRemaining_advanced (h : t.time.counter = s.time.counter + 1) (hd : d ≠ s.time.counter) :
    t.timeRemaining d + 1 = s.timeRemaining d := by
  unfold State.timeRemaining
  rw [h]
  bv_omega

theorem DeadlineLaw.placing (h : DeadlineLaw s) (hp : Placing s t) : DeadlineLaw t := fun ⟨x, d⟩ hx => by
  obtain ⟨hs, hlim⟩ | hnew := hp.placed x d hx
  · rw [hlim, State.timeRemaining_congr hp.counter]
    exact h (x, d) hs
  · rw [State.timeRemaining_congr hp.counter, hnew, State.timeRemaining_after]
    exact Nat.mod_le _ _

/-- What is placed at a moment has at least one advance to come (R180). -/
theorem ConduitLaw.placed_anew (hl : ConduitLaw t) (hx : t.Places x d) (hp : t.time.counter = s.time.counter)
    (hd : d = s.deadlineAfter (t.limitOf x)) : 1 ≤ t.timeRemaining d := by
  have hlimit : t.limitOf x ≤ 1000 := by
    cases x with
    | offer n => simp [State.limitOf]
    | proposal => simp [State.limitOf]
    | hold n p q =>
      obtain ⟨ch, hc, -⟩ := State.places_hold.1 hx
      rw [State.limitOf_hold hc]
      exact (hl n ch hc).requested.2.2.2.2
  rw [State.timeRemaining_congr hp, hd, State.timeRemaining_after]
  omega

end Deadlines

end Sys2Proof.Machine

/-! ### Expiries that are due

Each expiry taken removes a deadline that has come due and places none, so taking as many as are due leaves none. -/

namespace Sys2Proof.Machine

section DueExpiries

variable {s t : State} {n m : ConduitNo} {p : Port} {q : Half} {x : Expiry} {ch : Channel} {rows : List Expiry}

/-! #### What an expiry leaves of the slots -/

theorem State.endConduit_channel_ne (hm : m ≠ n) (r : EndReason) : (s.endConduit n r).channel m = s.channel m := by
  unfold State.endConduit
  split
  · rfl
  · rw [State.teardown_channel, if_neg hm, State.appendEvents_channel]

theorem State.drainCheck_channel_ne (hm : m ≠ n) : (s.drainCheck n).channel m = s.channel m := by
  unfold State.drainCheck
  split
  · rfl
  · split
    · split
      · exact State.endConduit_channel_ne hm _
      · rfl
    · rfl

theorem State.lapseOffer_of_due (hc : s.channel n = some ch) (hst : ch.stage = .offered s.time.counter) :
    s.lapseOffer n = s.failOffer n .lapsed (ch.producer :: ch.memberPorts) := by
  simp only [State.lapseOffer, hc, hst, if_true]

theorem State.failOffer_channel (s : State) (n m : ConduitNo) (r : OfferResult) (ps : List Port) :
    (s.failOffer n r ps).channel m = if m = n then none else s.channel m := by
  rw [State.failOffer, State.teardown_channel, State.appendEvents_channel]

theorem State.lapseProposal_of_due {pr : Proposal} (hpr : s.partition.proposal = some pr)
    (hd : pr.deadline = s.time.counter) : s.lapseProposal = s.resolveProposal pr .lapsed := by
  simp only [State.lapseProposal, hpr, hd, if_true]

theorem State.resolveProposal_proposal (s : State) (pr : Proposal) (r : ProposalResult) :
    (s.resolveProposal pr r).partition.proposal = none := by
  rw [State.resolveProposal, (State.appendEvents_surroundings _ _ _).partition]

theorem State.resolveProposal_conduits (s : State) (pr : Proposal) (r : ProposalResult) :
    (s.resolveProposal pr r).conduits = s.conduits := (s.resolveProposal_store pr r).conduits

/-- A due deadline of a hold finds its hold, since a port has one endpoint in a slot (R25). -/
theorem State.dueHold?_of_due (hl : ConduitLaw s) (hx : s.Places (.hold n p q) s.time.counter) :
    ∃ d, s.dueHold? n p q = some d := by
  obtain ⟨ch, hc, e, he, rfl, h, hh, hseq, hd⟩ := State.places_hold.1 hx
  have hfind : ch.endpoint? e.port = some e := by
    cases hep : ch.endpoint? e.port with
    | none => exact absurd (List.mem_map_of_mem he) (Channel.endpoint?_eq_none.1 hep)
    | some y =>
      obtain ⟨hy, hyp⟩ := Channel.endpoint?_some hep
      rw [Channel.endpoint_unique (hl.tidy.distinct n ch hc) hy he hyp]
  have hsome : (e.holds.find? (fun d => d.sequence == q && d.deadline == some s.time.counter)).isSome = true := by
    rw [List.find?_isSome]
    exact ⟨h, hh, by simp [hseq, hd]⟩
  obtain ⟨d, hd⟩ := Option.isSome_iff_exists.1 hsome
  exact ⟨d, by simp only [State.dueHold?, hc, hfind, hd]⟩

/-- After the lapse of a hold its slot is FREE, or in the use without the hold; every other slot is in the use it had.
Flow fields aside. -/
theorem State.lapseHold_channel {d : Hold} (hd : s.dueHold? n p q = some d) (hc : s.channel n = some ch) :
    ∃ f : ConduitNo → Flow → Flow,
      (∀ m, m ≠ n → (s.lapseHold n p q).channel m = (s.channel m).map (Channel.mapFlow (f m))) ∧
      ((s.lapseHold n p q).channel n = none ∨
        (s.lapseHold n p q).channel n = some ((ch.updateEndpoint p (Endpoint.lapse d q)).mapFlow (f n))) := by
  have hupdated : s.updateEndpoint n p (Endpoint.lapse d q) =
      s.setChannel n (some (ch.updateEndpoint p (Endpoint.lapse d q))) := s.updateChannel_of_some n hc
  rw [State.lapseHold_eq hd, hupdated]
  refine ⟨fun m x => if (s.segment d.handle).bind (Segment.noticeOf .holdLapse) = some m then x.afterFreeing 1 else x,
    fun m hm => ?_, ?_⟩
  · rw [State.drainCheck_channel_ne hm, State.appendEvent_channel, State.claim_channel,
      State.setChannel_channel_ne _ _ hm, State.setChannel_segment]
  · cases hch : (State.drainCheck _ n).channel n with
    | none => exact .inl rfl
    | some y =>
      have hy := State.drainCheck_channel_some hch
      rw [State.appendEvent_channel, State.claim_channel, State.setChannel_channel_self, State.setChannel_segment] at hy
      exact .inr hy.symm

/-! #### Deadlines counted -/

theorem Channel.deadlines_mapFlow (n : ConduitNo) (ch : Channel) (f : Flow → Flow) :
    (ch.mapFlow f).deadlines n = ch.deadlines n := by
  unfold Channel.deadlines
  rw [Channel.mapFlow_members, Channel.mapFlow_stage]
  cases ch.stage <;> rfl

theorem State.slotDeadlines_of_mapFlow {f : Flow → Flow} (h : t.channel n = (s.channel n).map (Channel.mapFlow f)) :
    t.slotDeadlines n = s.slotDeadlines n := by
  cases hc : s.channel n with
  | none =>
    rw [hc] at h
    rw [State.slotDeadlines_of_none h, State.slotDeadlines_of_none hc]
  | some ch =>
    rw [hc] at h
    rw [State.slotDeadlines_of_some h, State.slotDeadlines_of_some hc, Channel.deadlines_mapFlow]

/-- The deadlines of an endpoint's holds (R75). -/
def Endpoint.deadlines (n : ConduitNo) (e : Endpoint) : List (Expiry × Tick) :=
  e.holds.filterMap (fun h => h.deadline.map (fun target => (.hold n e.port h.sequence, target)))

theorem Endpoint.deadlines_lapse (n : ConduitNo) {e : Endpoint} {d : Hold} {target : Tick} (hd : d ∈ e.holds)
    (ht : d.deadline = some target) :
    List.Perm (e.deadlines n) ((.hold n e.port d.sequence, target) :: (e.lapse d q).deadlines n) := by
  have := (List.perm_cons_erase hd).filterMap
    (fun h => h.deadline.map (fun target => (Expiry.hold n e.port h.sequence, target)))
  rwa [List.filterMap_cons_some (by rw [ht]; rfl)] at this

theorem Endpoint.deadlines_lapse_sublist (n : ConduitNo) (e : Endpoint) (d : Hold) (q : Half) :
    List.Sublist ((e.lapse d q).deadlines n) (e.deadlines n) := List.erase_sublist.filterMap _

/-- The lapse of a due hold leaves fewer deadlines of any kind that its own is of. -/
theorem Channel.deadlines_lapse_lt {P : Expiry × Tick → Bool} {e : Endpoint} {d : Hold} {target : Tick}
    (he : e ∈ ch.members) (hd : d ∈ e.holds) (ht : d.deadline = some target)
    (hP : P (.hold n e.port d.sequence, target) = true) :
    ((ch.updateEndpoint e.port (Endpoint.lapse d q)).deadlines n).countP P < (ch.deadlines n).countP P := by
  have hmembers (c : Channel) : (c.members.flatMap (fun e => e.holds.filterMap (fun h =>
      h.deadline.map (fun target => (Expiry.hold n e.port h.sequence, target))))).countP P =
      (c.members.map (fun e => (e.deadlines n).countP P)).sum := by
    rw [List.countP_flatMap]; rfl
  rw [Channel.deadlines, Channel.deadlines, List.countP_append, List.countP_append, hmembers, hmembers,
    Channel.updateEndpoint, List.map_map]
  refine Nat.add_lt_add_left (List.sum_lt_sum _ _ (fun y _ => ?_) ⟨e, he, ?_⟩) _
  · simp only [Function.comp]
    split
    · exact (Endpoint.deadlines_lapse_sublist n y d q).countP_le
    · exact Nat.le_refl _
  · simp only [Function.comp, if_true]
    rw [(Endpoint.deadlines_lapse n hd ht).countP_eq, List.countP_cons_of_pos hP]
    exact Nat.lt_succ_self _

theorem State.placed_countP (s : State) (P : Expiry × Tick → Bool) : s.placedDeadlines.countP P =
    (match s.partition.proposal with
      | none => []
      | some pr => [(Expiry.proposal, pr.deadline)]).countP P +
    (allConduits.map (fun n => (s.slotDeadlines n).countP P)).sum := by
  rw [State.placedDeadlines, List.countP_append, List.countP_flatMap]
  rfl

/-- Fewer deadlines of some kind in one slot and no more in any other. -/
theorem State.placed_countP_lt {P : Expiry × Tick → Bool} (hp : t.partition.proposal = s.partition.proposal)
    (hother : ∀ m, m ≠ n → (t.slotDeadlines m).countP P ≤ (s.slotDeadlines m).countP P)
    (hn : (t.slotDeadlines n).countP P < (s.slotDeadlines n).countP P) :
    t.placedDeadlines.countP P < s.placedDeadlines.countP P := by
  rw [t.placed_countP, s.placed_countP, hp]
  refine Nat.add_lt_add_left (List.sum_lt_sum _ _ (fun m _ => ?_) ⟨n, mem_allConduits n, hn⟩) _
  by_cases hm : m = n
  · subst hm; exact hn.le
  · exact hother m hm

theorem State.slotDeadlines_pos {P : Expiry × Tick → Bool} {d : Tick} (hc : s.channel n = some ch)
    (hd : (x, d) ∈ ch.deadlines n) (hP : P (x, d) = true) : 0 < (s.slotDeadlines n).countP P := by
  rw [State.slotDeadlines_of_some hc]
  exact List.countP_pos_iff.2 ⟨_, hd, hP⟩

/-- A due expiry taken leaves fewer placed deadlines of any kind that its own is of. -/
theorem State.takeExpiry_countP_lt (hl : ConduitLaw s) (hx : s.Places x s.time.counter) {P : Expiry × Tick → Bool}
    (hP : P (x, s.time.counter) = true) :
    (s.takeExpiry x).placedDeadlines.countP P < s.placedDeadlines.countP P := by
  cases x with
  | offer n =>
    obtain ⟨ch, hc, hst⟩ := State.places_offer.1 hx
    have hch (m : ConduitNo) := State.failOffer_channel s n m .lapsed (ch.producer :: ch.memberPorts)
    rw [State.takeExpiry, State.lapseOffer_of_due hc hst]
    refine State.placed_countP_lt (n := n) (by rw [(s.failOffer_surroundings n _ _).partition]) (fun m hm => ?_) ?_
    · have : (s.failOffer n .lapsed (ch.producer :: ch.memberPorts)).channel m = s.channel m := by
        rw [hch, if_neg hm]
      simp only [State.slotDeadlines, this]
      exact Nat.le_refl _
    · rw [State.slotDeadlines_of_none (by rw [hch, if_pos rfl])]
      exact State.slotDeadlines_pos hc (Channel.mem_deadlines_offer.2 ⟨rfl, hst⟩) hP
  | proposal =>
    obtain ⟨pr, hpr, hd⟩ := State.places_proposal.1 hx
    rw [State.takeExpiry, State.lapseProposal_of_due hpr hd, State.placed_countP, State.placed_countP,
      State.resolveProposal_proposal, hpr]
    have hslots : (s.resolveProposal pr .lapsed).slotDeadlines = s.slotDeadlines := by
      funext m
      simp only [State.slotDeadlines, State.channel_ext (s.resolveProposal_conduits pr .lapsed)]
    rw [hslots]
    simp [hd, hP]
  | hold n p q =>
    obtain ⟨d, hd⟩ := State.dueHold?_of_due hl hx
    obtain ⟨ch, e, hc, he, hmem, rfl, ht⟩ := State.dueHold?_some hd
    obtain ⟨hemem, rfl⟩ := Channel.endpoint?_some he
    obtain ⟨f, hother, hn⟩ := State.lapseHold_channel hd hc
    rw [State.takeExpiry]
    refine State.placed_countP_lt (n := n) (by rw [(s.lapseHold_surroundings n _ _).partition]) (fun m hm => ?_) ?_
    · rw [State.slotDeadlines_of_mapFlow (hother m hm)]
    · obtain hn | hn := hn
      · rw [State.slotDeadlines_of_none hn]
        exact State.slotDeadlines_pos hc (Channel.mem_deadlines_hold.2 ⟨rfl, e, hemem, rfl, d, hmem, rfl, ht⟩) hP
      · rw [State.slotDeadlines_of_some hn, State.slotDeadlines_of_some hc, Channel.deadlines_mapFlow]
        exact Channel.deadlines_lapse_lt hemem hmem ht hP

/-! #### All that are due -/

theorem State.mem_dueBut : x ∈ s.dueBut rows ↔ s.Places x s.time.counter ∧ x ∉ rows := by
  simp [State.dueBut, State.dueExpiries, State.Places]

theorem State.dueBut_length (s : State) (rows : List Expiry) : (s.dueBut rows).length =
    s.placedDeadlines.countP (fun y => y.2 == s.time.counter && !rows.contains y.1) := by
  rw [State.dueBut, State.dueExpiries, ← List.countP_eq_length_filter, List.countP_map, List.countP_filter]
  refine List.countP_congr (fun y _ => ?_)
  simp [and_comm]

theorem State.takeExpiry_dueBut_lt (hl : ConduitLaw s) (hx : x ∈ s.dueBut rows) :
    ((s.takeExpiry x).dueBut rows).length < (s.dueBut rows).length := by
  obtain ⟨hp, hr⟩ := State.mem_dueBut.1 hx
  rw [State.dueBut_length, State.dueBut_length, s.takeExpiry_time]
  exact State.takeExpiry_countP_lt hl hp (by simp [hr])

theorem pickExpiry_mem (choices : Nat) (e : Expiry) (es : List Expiry) : pickExpiry choices e es ∈ e :: es := by
  have hlt : Config.expiryChoice choices % (es.length + 1) < (e :: es).length :=
    Nat.mod_lt _ (Nat.succ_pos _)
  rw [pickExpiry, List.getD_eq_getElem _ _ hlt]
  exact List.getElem_mem hlt

/-- As many expiries taken as are due leave none due but those the rows take (R181). -/
theorem State.takeDue_clears (rows : List Expiry) : ∀ (k : Nat) (s : State), ConduitLaw s →
    (s.dueBut rows).length ≤ k → (State.takeDue rows k s).dueBut rows = [] := by
  intro k
  induction k with
  | zero => exact fun s _ h => List.length_eq_zero_iff.1 (Nat.le_zero.1 h)
  | succ k ih =>
    intro s hl h
    have step {u : State} {e : Expiry} (hu : ConduitLaw u) (he : e ∈ u.dueBut rows)
        (hlen : (u.dueBut rows).length ≤ k + 1) : (State.takeDue rows k (u.takeExpiry e)).dueBut rows = [] :=
      ih _ (((Carries.refl _ u).takeExpiry e).keeps_law hu)
        (Nat.le_of_lt_succ ((State.takeExpiry_dueBut_lt hu he).trans_le hlen))
    rw [State.takeDue]
    split
    · assumption
    · rename_i e he
      exact step hl (by rw [he]; exact List.mem_cons_self) h
    · rename_i e es _ he
      have hsame : ({ s with choices := s.choices + 1 } : State).dueBut rows = e :: es := he
      exact step (u := { s with choices := s.choices + 1 }) (hl.congr (fun _ ha => ha) rfl)
        (by rw [hsame]; exact pickExpiry_mem _ e es) h

/-- Every due expiry taken, none is left due but those the rows take. -/
theorem State.expireDueBut_clears (hl : ConduitLaw s) (rows : List Expiry) {d : Tick}
    (h : (s.expireDueBut rows).Places x d) (hd : d = (s.expireDueBut rows).time.counter) : x ∈ rows := by
  have hnil : (s.expireDueBut rows).dueBut rows = [] := State.takeDue_clears rows _ s hl (Nat.le_refl _)
  subst hd
  by_contra hx
  have := State.mem_dueBut.2 ⟨h, hx⟩
  rw [hnil] at this
  cases this

end DueExpiries

end Sys2Proof.Machine

/-! ### The laws of the deadlines, step by step -/

namespace Sys2Proof.Machine

section DeadlineSteps

variable {s t : State} {n : ConduitNo} {p : Port} {q : Half} {d : Tick} {x : Expiry} {rows : List Expiry}

/-! #### Slots and proposal left alone -/

/-- The slots and the Partition Unit stay, and with them what is placed. -/
structure SameOwners (s t : State) : Prop where
  conduits : t.conduits = s.conduits
  partition : t.partition = s.partition

theorem SameOwners.placedDeadlines (h : SameOwners s t) : t.placedDeadlines = s.placedDeadlines := by
  have hslot : t.slotDeadlines = s.slotDeadlines := by
    funext n
    simp only [State.slotDeadlines, State.channel_ext h.conduits]
  simp only [State.placedDeadlines, h.partition, hslot]

theorem SameOwners.places (h : SameOwners s t) : t.Places x d ↔ s.Places x d := by
  rw [State.Places, State.Places, h.placedDeadlines]

theorem SameOwners.limitOf (h : SameOwners s t) (x : Expiry) : t.limitOf x = s.limitOf x := by
  cases x with
  | offer n => rfl
  | proposal => rfl
  | hold n p q => simp only [State.limitOf, State.channel_ext h.conduits]

theorem State.countAdvance_owners (s : State) : SameOwners s s.countAdvance := by
  unfold State.countAdvance
  split <;> exact ⟨rfl, rfl⟩

theorem State.countAdvance_pending (s : State) : s.countAdvance.pending = s.pending := by
  unfold State.countAdvance
  split <;> rfl

theorem State.countAdvance_counter (hr : s.time.reset = .running) :
    s.countAdvance.time.counter = s.time.counter + 1 := by
  simp only [State.countAdvance, hr]

/-! #### Expiries -/

theorem Carries.expireDueBut (A : Port → Prop) (s : State) (rows : List Expiry) :
    Carries A .nothing s (s.expireDueBut rows) :=
  s.takeDue_keeps (P := Carries A .nothing s) (fun _ x h => h.takeExpiry x)
    (fun t _ h => h.aside (t := t) ⟨⟨rfl, rfl, fun pr hp => .inl ⟨pr, hp, rfl⟩⟩, fun _ ha => ha⟩ rfl) rows _ (.refl A s)

theorem State.expireDueBut_time (s : State) (rows : List Expiry) : (s.expireDueBut rows).time = s.time :=
  s.takeDue_keeps (P := fun t => t.time = s.time) (fun t x h => (t.takeExpiry_time x).trans h) (fun _ _ h => h) rows _
    rfl

theorem State.expireDueBut_of_nothing (h : s.placedDeadlines = []) (rows : List Expiry) : s.expireDueBut rows = s := by
  have hnil : s.dueBut rows = [] := by simp [State.dueBut, State.dueExpiries, h]
  rw [State.expireDueBut, hnil]
  rfl

theorem State.places_not_due (hl : ConduitLaw s) (h : s.expireDue.Places x d) : d ≠ s.expireDue.time.counter :=
  fun hd => by cases State.expireDueBut_clears hl [] h hd

/-! #### Advances in operation -/

theorem DeadlineLaw.counted (h : DeadlineLaw s) (ho : SameOwners s t)
    (hc : t.time.counter = s.time.counter + 1) (hd : ∀ x d, s.Places x d → d ≠ s.time.counter) : DeadlineLaw t :=
  fun ⟨x, d⟩ hx => by
    have hs : s.Places x d := ho.places.1 hx
    have hle := h (x, d) hs
    have hlt := State.timeRemaining_advanced hc (hd x d hs)
    rw [ho.limitOf]
    simp only at hle ⊢
    omega

theorem DeadlineLaw.expired (h : DeadlineLaw s) (rows : List Expiry) : DeadlineLaw (s.expireDueBut rows) :=
  h.placing (Carries.expireDueBut s.Attached s rows).placing

theorem ConduitLaw.expired (h : ConduitLaw s) (rows : List Expiry) : ConduitLaw (s.expireDueBut rows) :=
  (Carries.expireDueBut s.Attached s rows).keeps_law h

theorem ConduitLaw.counted (h : ConduitLaw s) (hr : s.time.reset = .running) : ConduitLaw s.countAdvance :=
  h.congr (fun _ ha => by simp only [State.countAdvance, hr]; exact ha) s.countAdvance_store.conduits

/-- An advance in operation, whose expiries are taken but for those that rows take. -/
def State.advanced (s : State) (rows : List Expiry) : State := s.expireDue.countAdvance.expireDueBut rows

theorem State.expireDue_running (hr : s.time.reset = .running) : s.expireDue.time.reset = .running := by
  rw [State.expireDue, s.expireDueBut_time, hr]

theorem DeadlineLaw.advanced (h : DeadlineLaw s) (hl : ConduitLaw s) (hr : s.time.reset = .running)
    (rows : List Expiry) : DeadlineLaw (s.advanced rows) :=
  ((h.expired []).counted s.expireDue.countAdvance_owners (State.countAdvance_counter (State.expireDue_running hr))
    (fun _ _ hx => State.places_not_due hl hx)).expired rows

/-- After an advance in operation only a deadline left to its row stands at its target. -/
theorem State.advanced_remaining (hl : ConduitLaw s) (hr : s.time.reset = .running)
    (hx : (s.advanced rows).Places x d) : 1 ≤ (s.advanced rows).timeRemaining d ∨ x ∈ rows := by
  by_cases hd : d = (s.advanced rows).time.counter
  · exact .inr (State.expireDueBut_clears ((hl.expired []).counted (State.expireDue_running hr)) rows hx hd)
  · exact .inl (Nat.pos_of_ne_zero (fun h0 => hd (State.timeRemaining_eq_zero.1 h0)))

theorem State.advanced_pending (s : State) (rows : List Expiry) : (s.advanced rows).pending = s.pending := by
  rw [State.advanced, (Carries.expireDueBut (fun _ => True) _ rows).pending, State.countAdvance_pending]
  exact (Carries.expireDueBut (fun _ => True) s []).pending

theorem State.advance_running (hr : s.time.reset = .running) : s.advance = s.advanced (leadingExpiries s.pending) := by
  simp only [State.advance, hr]
  rfl

/-- A reference clock period in operation takes what is due and counts, or is an advance whose expiries are all taken
(R179). -/
theorem State.referencePeriod_running (hr : s.time.reset = .running) :
    s.referencePeriod = { s.expireDue with time := { s.expireDue.time with divider := s.expireDue.time.divider + 1 } } ∨
      s.referencePeriod = s.advanced [] := by
  simp only [State.referencePeriod, hr]
  split
  · exact .inl rfl
  · exact .inr rfl

/-! #### Before operation -/

/-- Before operation no deadline is placed: every slot is FREE, and a proposal would have an ATTACHED voter. -/
theorem PortLaw.nothing_placed (hp : PortLaw s) (hpart : PartitionLaw s) (hl : ConduitLaw s)
    (hr : s.time.reset ≠ .running) : s.placedDeadlines = [] := by
  have hslots := hp.slotsInTime hl
  refine placedDeadlines_of_free ?_ (hslots.free hr)
  cases hpr : s.partition.proposal with
  | none => rfl
  | some pr =>
    obtain ⟨-, -, -, -, ⟨v, hv⟩, hvoters⟩ := hpart.proposal pr hpr
    exact absurd ((hvoters v).1 (by rw [hv]; nofun)) (hslots.2 hr v)

theorem State.advance_nothing (h : s.placedDeadlines = []) (hr : s.time.reset ≠ .running) :
    s.advance.placedDeadlines = [] := by
  have : s.advance = s.countAdvance := by
    unfold State.advance
    split
    · rfl
    · rfl
    · contradiction
  rw [this, s.countAdvance_owners.placedDeadlines, h]

theorem State.referencePeriod_nothing (h : s.placedDeadlines = []) (hr : s.time.reset ≠ .running) :
    s.referencePeriod.placedDeadlines = [] := by
  have hsame : s.expireDue = s := State.expireDueBut_of_nothing h []
  have hcounted : s.countAdvance.placedDeadlines = [] := by rw [s.countAdvance_owners.placedDeadlines, h]
  unfold State.referencePeriod
  split
  · exact h
  · simp only [hsame]
    split
    · exact h
    · rw [State.expireDue, State.expireDueBut_of_nothing hcounted, hcounted]
  · contradiction

/-! #### Lapse rows -/

theorem leadingExpiries_cons (i : Instr) (rest : List Instr) : leadingExpiries (i :: rest) =
    match expiryOf? i with
    | some x => x :: leadingExpiries rest
    | none => [] := by
  unfold leadingExpiries
  cases h : expiryOf? i <;> simp [h]

theorem exec_of_expiry {i : Instr} (h : expiryOf? i = some x) (s : State) : exec i s = .next (s.takeExpiry x) := by
  cases i <;> cases h <;> rfl

/-- A due expiry, taken, is not due again: a slot has one offer, and no two holds of a member carry one sequence. -/
theorem State.takeExpiry_not_due (hl : ConduitLaw s) (he : EntryLaw s) (hx : s.Places x s.time.counter) :
    ¬ (s.takeExpiry x).Places x s.time.counter := by
  cases x with
  | offer n =>
    obtain ⟨ch, hc, hst⟩ := State.places_offer.1 hx
    rw [State.takeExpiry, State.lapseOffer_of_due hc hst, State.places_offer]
    rintro ⟨c, hc', -⟩
    rw [State.failOffer_channel, if_pos rfl] at hc'
    cases hc'
  | proposal =>
    obtain ⟨pr, hpr, hd⟩ := State.places_proposal.1 hx
    rw [State.takeExpiry, State.lapseProposal_of_due hpr hd, State.places_proposal]
    rintro ⟨c, hc', -⟩
    rw [State.resolveProposal_proposal] at hc'
    cases hc'
  | hold n p q =>
    obtain ⟨d, hd⟩ := State.dueHold?_of_due hl hx
    obtain ⟨ch, e, hc, hep, hmem, rfl, ht⟩ := State.dueHold?_some hd
    obtain ⟨hemem, rfl⟩ := Channel.endpoint?_some hep
    obtain ⟨f, -, hn⟩ := State.lapseHold_channel hd hc
    rw [State.takeExpiry, State.places_hold]
    rintro ⟨c, hc', y', hy', hyp, w, hw, hseq, -⟩
    obtain hn | hn := hn
    · rw [hn] at hc'
      cases hc'
    · rw [hn] at hc'
      cases hc'
      obtain ⟨y, hy, rfl⟩ := List.mem_map.1 hy'
      have hyp : y.port = e.port := by
        split at hyp
        · assumption
        · exact hyp
      obtain rfl := Channel.endpoint_unique (hl.tidy.distinct n ch hc) hy hemem hyp
      have hnodup := (he n ch hc y hy).2
      rw [if_pos rfl] at hw
      have hw' := (hnodup.of_map _).mem_erase_iff.1 hw
      exact hw'.1 (List.inj_on_of_nodup_map hnodup hw'.2 hmem hseq)

/-! #### The laws -/

theorem exec_deadlines {i : Instr} (hp : PortLaw s) (hpart : PartitionLaw s) (hl : ConduitLaw s) (h : DeadlineLaw s)
    (hi : exec i s = .next t) : DeadlineLaw t := by
  have nothing (u : State) (hu : u.placedDeadlines = []) : DeadlineLaw u := fun y hy => by rw [hu] at hy; cases hy
  cases exec_effect hi with
  | kept hk => exact h.placing hk.continued.placing
  | offered ho => exact h.placing ho.placing
  | reset hr => subst hr; exact nothing _ (placedDeadlines_of_free rfl (channel_of_initial rfl))
  | advanced ha =>
    subst ha
    by_cases hr : s.time.reset = .running
    · rw [State.advance_running hr]; exact h.advanced hl hr _
    · exact nothing _ (State.advance_nothing (hp.nothing_placed hpart hl hr) hr)
  | started hs hst =>
    subst hst
    have howners : SameOwners s s.endStartUp := ⟨rfl, rfl⟩
    exact nothing _ (howners.placedDeadlines.trans (hp.nothing_placed hpart hl (by rw [hs]; nofun)))

theorem DeadlineLaw.referencePeriod (hp : PortLaw s) (hpart : PartitionLaw s) (hl : ConduitLaw s) (h : DeadlineLaw s) :
    DeadlineLaw s.referencePeriod := by
  by_cases hr : s.time.reset = .running
  · obtain ht | ht := State.referencePeriod_running hr
    · have howners : SameOwners s.expireDue s.referencePeriod := by rw [ht]; exact ⟨rfl, rfl⟩
      have hcounter : s.referencePeriod.time.counter = s.expireDue.time.counter := by rw [ht]
      exact (h.expired []).placing ⟨hcounter, by rw [ht]; rfl, fun x d hx =>
        .inl ⟨howners.places.1 hx, howners.limitOf x⟩⟩
    · rw [ht]; exact h.advanced hl hr []
  · intro y hy
    rw [State.referencePeriod_nothing (hp.nothing_placed hpart hl hr) hr] at hy
    cases hy

/-- Every placed deadline has an advance to come, but for those of these owners. -/
def State.PromptBut (s : State) (rows : List Expiry) : Prop := ∀ x d, s.Places x d → 1 ≤ s.timeRemaining d ∨ x ∈ rows

theorem State.PromptBut.placing (h : s.PromptBut rows) (hp : Placing s t) (hl : ConduitLaw t) : t.PromptBut rows :=
  fun x d hx => by
    obtain ⟨hs, -⟩ | hnew := hp.placed x d hx
    · rw [State.timeRemaining_congr hp.counter]
      exact h x d hs
    · exact .inl (hl.placed_anew hx hp.counter hnew)

theorem State.PromptBut.mono (h : s.PromptBut []) : s.PromptBut rows := fun x d hx =>
  (h x d hx).imp_right fun hx => absurd hx List.not_mem_nil

theorem State.promptBut_of_nothing (h : s.placedDeadlines = []) (rows : List Expiry) : s.PromptBut rows :=
  fun x d hx => by rw [State.Places, h] at hx; cases hx

/-- A row that is no lapse row finds nothing due, and leaves due at most what an advance leaves to the rows behind. -/
theorem exec_prompt {i : Instr} (hp : PortLaw s) (hpart : PartitionLaw s) (hl : ConduitLaw s) (h : s.PromptBut [])
    (hi : exec i s = .next t) : t.PromptBut (leadingExpiries t.pending) := by
  have hlt : ConduitLaw t := exec_conduits hp hl hi
  cases exec_effect hi with
  | kept hk => exact (h.placing hk.continued.placing hlt).mono
  | offered ho => exact (h.placing ho.placing hlt).mono
  | reset hr => subst hr; exact State.promptBut_of_nothing (placedDeadlines_of_free rfl (channel_of_initial rfl)) _
  | advanced ha =>
    subst ha
    by_cases hr : s.time.reset = .running
    · rw [State.advance_running hr, State.advanced_pending]
      exact fun x d hx => State.advanced_remaining hl hr hx
    · exact State.promptBut_of_nothing (State.advance_nothing (hp.nothing_placed hpart hl hr) hr) _
  | started hs hst =>
    subst hst
    have howners : SameOwners s s.endStartUp := ⟨rfl, rfl⟩
    exact State.promptBut_of_nothing
      (howners.placedDeadlines.trans (hp.nothing_placed hpart hl (by rw [hs]; nofun))) _

theorem State.PromptBut.referencePeriod (hp : PortLaw s) (hpart : PartitionLaw s) (hl : ConduitLaw s)
    (h : s.PromptBut []) : s.referencePeriod.PromptBut [] := by
  by_cases hr : s.time.reset = .running
  · obtain ht | ht := State.referencePeriod_running hr
    · have howners : SameOwners s.expireDue s.referencePeriod := by rw [ht]; exact ⟨rfl, rfl⟩
      have hcounter : s.referencePeriod.time.counter = s.expireDue.time.counter := by rw [ht]
      have hexpired : s.expireDue.PromptBut [] :=
        h.placing (Carries.expireDueBut s.Attached s []).placing (hl.expired [])
      intro x d hx
      rw [State.timeRemaining_congr hcounter]
      exact hexpired x d (howners.places.1 hx)
    · rw [ht]; exact fun x d hx => State.advanced_remaining hl hr hx
  · exact State.promptBut_of_nothing (State.referencePeriod_nothing (hp.nothing_placed hpart hl hr) hr) _

/-- A lapse row takes its expiry where that is due, and leaves the others to the rows behind it. -/
theorem State.PromptBut.takeExpiry (h : s.PromptBut (x :: rows)) (hl : ConduitLaw s) (he : EntryLaw s) :
    (s.takeExpiry x).PromptBut rows := by
  have hcarries : Carries s.Attached .nothing s (s.takeExpiry x) := (Carries.refl _ s).takeExpiry x
  intro y d hy
  by_cases hdue : d = s.time.counter ∧ y = x
  · obtain ⟨rfl, rfl⟩ := hdue
    by_cases hs : s.Places y s.time.counter
    · exact absurd hy (State.takeExpiry_not_due hl he hs)
    · obtain ⟨hs', -⟩ | hnew := hcarries.placing.placed _ _ hy
      · exact absurd hs' hs
      · exact .inl ((hcarries.keeps_law hl).placed_anew hy hcarries.counter hnew)
  · obtain hrem | hmem := h.placing hcarries.placing (hcarries.keeps_law hl) y d hy
    · exact .inl hrem
    · obtain rfl | hmem := List.mem_cons.1 hmem
      · refine .inl (Nat.pos_of_ne_zero (fun h0 => hdue ⟨?_, rfl⟩))
        rw [State.timeRemaining_congr hcarries.counter] at h0
        exact State.timeRemaining_eq_zero.1 h0
      · exact .inr hmem

theorem PartitionLaw.of_pending {rest : List Instr} (h : PartitionLaw s) : PartitionLaw { s with pending := rest } :=
  ⟨h.activeSums, h.proposal⟩

theorem promptLaw_iff : PromptLaw s ↔ s.PromptBut (leadingExpiries s.pending) :=
  ⟨fun h x d hx => h (x, d) hx, fun h y hy => h y.1 y.2 hy⟩

end DeadlineSteps

end Sys2Proof.Machine

open Sys2Proof Sys2Proof.Machine in
/-- Settles O15: what is placed was placed before or is placed now, and all that is due is taken before the counter
moves on. -/
theorem everyStepKeepsTheDeadlineLaw : Obligations.EveryStepKeepsTheDeadlineLaw := by
  refine ⟨fun s t hp hpart hl h hstep => ?_, fun s t hp hpart hl he h hstep => ?_⟩
  · obtain ⟨-, rfl⟩ | ⟨i, rest, -, hi⟩ := step_cases hstep
    · exact h.referencePeriod hp hpart hl
    · exact exec_deadlines (s := { s with pending := rest }) hp.of_pending hpart.of_pending hl.of_pending h hi
  · rw [promptLaw_iff] at h ⊢
    obtain ⟨hpend, rfl⟩ | ⟨i, rest, hpend, hi⟩ := step_cases hstep
    · rw [hpend] at h
      exact (State.PromptBut.referencePeriod hp hpart hl h).mono
    · rw [hpend, leadingExpiries_cons] at h
      cases hx : expiryOf? i with
      | none =>
        simp only [hx] at h
        exact exec_prompt (s := { s with pending := rest }) hp.of_pending hpart.of_pending hl.of_pending h hi
      | some x =>
        simp only [hx] at h
        rw [exec_of_expiry hx] at hi
        cases hi
        rw [((Carries.refl s.Attached { s with pending := rest }).takeExpiry x).pending]
        exact State.PromptBut.takeExpiry (s := { s with pending := rest }) h hl.of_pending he

/-! ### The commands of the Conduit Table, at their acceptance -/

namespace Sys2Proof.Machine

section ConduitCommands

variable {s : State} {p : Port} {b : Byte} {n : ConduitNo} {ch : Channel}

/-! #### The checks in front -/

theorem State.onConduit_unnamed {k : ConduitNo → Channel → Answer} (hb : conduitOf? b = none) :
    s.onConduit b k = refuse s .badArgument := by
  simp only [State.onConduit, hb]

theorem State.onConduit_free {k : ConduitNo → Channel → Answer} (hb : conduitOf? b = some n)
    (hc : s.channel n = none) : s.onConduit b k = refuse s .wrongState := by
  simp only [State.onConduit, hb, hc]

theorem conduitOf?_eq_none : conduitOf? b = none ↔ 23 < b.toNat := by
  unfold conduitOf?
  split
  · simp only [reduceCtorEq, false_iff]; omega
  · simp only [true_iff]; omega

/-- Every command that names a conduit checks the number and then the slot, but for CONDUIT_INFO, which reports any slot
(R27, R49). -/
theorem exec_of_conduit_frame {i : Instr} {c : Command} {args : List Byte} (h : i.frame = some (c, p, b :: args))
    (hc : namesConduit c = true) : ∃ owner : State → Answer,
      (∀ s, exec i s = .next (s.transact p c (b :: args) (conduitOf? b) owner)) ∧
      (∀ s, conduitOf? b = none → owner s = refuse s .badArgument) ∧
      (∀ s n, conduitOf? b = some n → s.channel n = none →
        (c ≠ .conduitInfo → owner s = refuse s .wrongState) ∧
        (c = .conduitInfo → owner s = { state := s, outcome := .done, fields := s.conduitRecord n })) := by
  have checked {owner : State → Answer} {k : State → ConduitNo → Channel → Answer}
      (he : ∀ s, exec i s = .next (s.transact p c (b :: args) (conduitOf? b) owner))
      (ho : ∀ s, owner s = s.onConduit b (k s)) (hne : c ≠ .conduitInfo) : ∃ owner : State → Answer,
      (∀ s, exec i s = .next (s.transact p c (b :: args) (conduitOf? b) owner)) ∧
      (∀ s, conduitOf? b = none → owner s = refuse s .badArgument) ∧
      (∀ s n, conduitOf? b = some n → s.channel n = none →
        (c ≠ .conduitInfo → owner s = refuse s .wrongState) ∧
        (c = .conduitInfo → owner s = { state := s, outcome := .done, fields := s.conduitRecord n })) :=
    ⟨owner, he, fun s hb => (ho s).trans (State.onConduit_unnamed hb), fun s n hb hfree =>
      ⟨fun _ => (ho s).trans (State.onConduit_free hb hfree), fun e => absurd e hne⟩⟩
  cases i <;> simp only [Instr.frame, Option.some.injEq, Prod.mk.injEq, reduceCtorEq] at h
  all_goals obtain ⟨rfl, rfl, hargs⟩ := h
  all_goals cases hc
  all_goals cases hargs
  case conduitInfo =>
    refine ⟨_, fun _ => rfl, fun s hb => ?_, fun s n hb _ => ⟨fun hne => absurd rfl hne, fun _ => ?_⟩⟩
    · simp only [conduitInfoAnswer, hb]
    · simp only [conduitInfoAnswer, hb]
  all_goals exact checked (fun _ => rfl) (fun _ => rfl) nofun

theorem admission_of_namesConduit {c : Command} (h : namesConduit c = true) : admission c .attached = none := by
  revert h
  cases c <;> simp [namesConduit, admission]

theorem admission_detached_of_namesConduit {c : Command} (h : namesConduit c = true) (hc : c ≠ .conduitInfo) :
    admission c .detached = some .notAttached := by
  revert h hc
  cases c <;> simp [namesConduit, admission]

/-! #### Replies -/

/-- A refusal of a command that names a conduit, written and replied. -/
theorem State.transact_conduit_refused {c : Command} {args : List Byte} {owner : State → Answer} {o : OutcomeCode}
    (ha : s.Awaits p .attached) (hb : b.toNat = n.val) (hc : c ≠ .attach) (ho : owner s = refuse s o) (hd : o ≠ .done) :
    s.transact p c args (conduitOf? b) owner = s.replied p c o (some n) none [] := by
  rw [State.transact_refused ha hc ho hd, conduitOf?_of_toNat hb]

/-- An accepted command that names a conduit and places no handle, written and replied. -/
theorem State.transact_conduit_done {c : Command} {args : List Byte} {owner : State → Answer} {u : State}
    {fields : List Byte} (ha : s.Awaits p .attached) (hb : b.toNat = n.val)
    (hc : c ≠ .attach ∧ c ≠ .status ∧ c ≠ .detach ∧ c ≠ .post)
    (ho : owner s = { state := u, outcome := .done, fields }) (hu : u.ports = s.ports) :
    s.transact p c args (conduitOf? b) owner = u.replied p c .done (some n) none fields := by
  rw [State.transact_of_attached ha hc.1 ho (by rw [State.port_congr hu]) (fun _ => hc.2), conduitOf?_of_toNat hb]
  rfl

/-! #### The drain check -/

theorem Channel.undrained (h : ∃ e ∈ ch.members, e.queue ≠ [] ∨ e.holds ≠ []) : ¬ ch.drained = true := by
  intro hd
  obtain ⟨e, he, hne⟩ := h
  obtain ⟨hq, hh⟩ := Channel.drained_iff.1 hd e he
  exact hne.elim (fun h => h hq) (fun h => h hh)

end ConduitCommands

end Sys2Proof.Machine

section DrainCheckAndConduitChecks

open Sys2Proof Sys2Proof.Machine

/-- Settles O24. -/
theorem drainCheckEndsADrainedConduit : Obligations.DrainCheckEndsADrainedConduit := by
  refine fun s n ch hc hp hn => ⟨fun f hst hall => ?_, fun h => ?_⟩
  · simp only [State.drainCheck, hc, hst, Channel.drained_iff.2 hall, if_true]
    exact s.endConduit_eq n .drained hc hp hn
  · cases hst : ch.stage with
    | offered d => simp only [State.drainCheck, hc, hst]
    | opened f => simp only [State.drainCheck, hc, hst]
    | draining f =>
      simp only [State.drainCheck, hc, hst, Channel.undrained (h f hst)]
      rfl

/-- Settles O28: the port-state check, and then the two checks every conduit command begins with. -/
theorem conduitNumberAndSlotAreCheckedFirst : Obligations.ConduitNumberAndSlotAreCheckedFirst := by
  intro i c p b args s hf hnames
  have hnamed : namedConduit c (b :: args) = conduitOf? b := by simp [namedConduit, hnames]
  obtain ⟨owner, he, hunnamed, hfree⟩ := exec_of_conduit_frame hf hnames
  have answered {shown : ShownState} {a : Answer} (ha : s.Awaits p shown)
      (hs : shown = .attached ∨ c = .conduitInfo ∧ shown = .detached) (ho : owner s = a) (hstate : a.state = s)
      (hd : a.outcome = .done → c = .conduitInfo) :
      exec i s = .next (s.replied p c a.outcome (a.conduit.or (conduitOf? b)) a.handle
        (if a.outcome = .done then a.fields else [])) := by
    have hadm : admission c shown = none := by
      obtain rfl | ⟨rfl, rfl⟩ := hs
      · exact admission_of_namesConduit hnames
      · rfl
    have hkept : (a.state.port p).transaction = (s.port p).transaction := by rw [hstate]
    rw [he, State.transact_eq_replied ha (a := a) (by rw [hadm]; exact ho) hkept
      (fun h => by rw [hd h]; exact ⟨nofun, nofun, nofun⟩), hstate]
  refine ⟨fun ha => ?_, fun ha hc => ?_, fun shown ha hs => ⟨fun hb => ?_, fun n hb hch =>
    ⟨fun hc => ?_, fun hc => ?_⟩⟩⟩
  · rw [exec_of_frame_refused hf ha rfl nofun, hnamed]
  · rw [exec_of_frame_refused hf ha (admission_detached_of_namesConduit hnames hc) nofun, hnamed]
  · have hb := conduitOf?_eq_none.2 hb
    rw [answered ha hs (hunnamed s hb) rfl nofun, hb]
    rfl
  · have hb := conduitOf?_of_toNat hb
    rw [answered ha hs ((hfree s n hb hch).1 hc) rfl nofun, hb]
    rfl
  · have hb := conduitOf?_of_toNat hb
    rw [answered ha hs ((hfree s n hb hch).2 hc) rfl (fun _ => hc), hb]
    rfl

end DrainCheckAndConduitChecks

section Detach

open Sys2Proof Sys2Proof.Machine

/-- Settles O32: the departure, and then the reply on the port that has departed. -/
theorem detachDeparts : Obligations.DetachDeparts := by
  intro s p hl hr ha
  have hleft : PortState.detached ≠ .attached := by decide
  have hprod : ∀ n ch, s.channel n = some ch → ch.producer ∉ ch.memberPorts :=
    fun n ch hc => (hl n ch hc).producerApart
  obtain ⟨hchoices, hpending⟩ := State.depart_choices_pending (hr.refers hl) hleft hprod (p := p) .detach
  obtain ⟨x, hx, he⟩ := State.transact_of_awaits ha .detach [] none
    (fun s => { state := s.depart p .detach .detached, outcome := .done })
  refine ⟨_, congrArg Host.Outcome.next he,
    (State.depart_departedTo (hr.refers hl) hleft hprod .detach).setPort _, ?_, hchoices, hpending⟩
  have hport : (s.depart p .detach .detached).port p = (s.port p).departed .detached := by
    rw [State.port, State.depart_ports, PerPort.get_set, if_pos rfl]
    rfl
  refine (State.setPort_port_self _ _ _).trans ?_
  simp only [State.writeOutcome, admission, or_true, and_self, if_true, hport, PortController.replying,
    PortController.departed, hx]
  rfl

end Detach

/-! #### Offers -/

namespace Sys2Proof.Machine

section OffersAndAnswers

variable {s : State} {p : Port} {b : Byte} {n : ConduitNo} {ch : Channel}

theorem State.freeSlot?_eq (hn : s.channel n = none) (hmin : ∀ m, m < n → s.channel m ≠ none) :
    s.freeSlot? = some n := by
  have hat : Fin.ofNat 24 n.val = n := by simp
  unfold State.freeSlot? allConduits
  rw [List.find?_map, Option.map_eq_some_iff]
  refine ⟨n.val, List.find?_range_eq_some.2 ⟨?_, List.mem_range.2 n.isLt, fun j hj => ?_⟩, hat⟩
  · rw [Function.comp_apply, hat, hn]; rfl
  · have hlt : Fin.ofNat 24 j < n := by
      have : j % 24 = j := Nat.mod_eq_of_lt (hj.trans n.isLt)
      simpa [Fin.lt_def, this] using hj
    simpa [Option.isSome_iff_ne_none] using hmin _ hlt

theorem State.makeOffer_eq (s : State) (n : ConduitNo) (p : Port) {members : List Port} (hm : members.Nodup)
    (cls : ConduitClass) (window size limit : Nat) : s.makeOffer n p members cls window size limit =
      { s with
        conduits := s.conduits.set n
          { generation := (s.conduit n).generation + 1
            channel := some (.offering p members cls window size limit (s.deadlineAfter 100)) }
        events := s.heard (fun q =>
          if q ∈ members then [.offerReceived n ((s.conduit n).generation + 1) p window size] else []) } := by
  unfold State.makeOffer
  rw [State.appendEvents_of_nodup _ _ hm]
  rfl

/-- The class a byte names, where it names one (R174). -/
theorem classOf?_eq (cls : Byte) : classOf? cls =
    if cls = 0x01 ∨ cls = 0x02 then some (if cls = 0x01 then .urgent else .routine) else none := by
  unfold classOf?
  by_cases h1 : cls = 0x01
  · rw [if_pos h1, if_pos (.inl h1), if_pos h1]
  · rw [if_neg h1, if_neg h1]
    by_cases h2 : cls = 0x02
    · rw [if_pos h2, if_pos (.inr h2)]
    · rw [if_neg h2, if_neg (not_or.2 ⟨h1, h2⟩)]

/-- OFFER behind its first two checks: the ranges, the quota and the slot (R30, R31). -/
theorem offerAnswer_eq {ms cls w : Byte} {sz hl : Half}
    (hms : ms.toNat < 16 ∧ membersOf ms ≠ [] ∧ p ∉ membersOf ms) (hm : ∀ m ∈ membersOf ms, s.Attached m) :
    offerAnswer p ms cls w sz hl s =
      if (cls = 0x01 ∨ cls = 0x02) ∧ 1 ≤ w.toNat ∧ w.toNat ≤ 16 ∧ 1 ≤ sz.toNat ∧ sz.toNat ≤ 1024 ∧
          hl.toNat ≤ 1000 then
        if s.chargedConduits p + 1 ≤ (s.partition.quotas.get p).conduits then
          match s.freeSlot? with
          | none => refuse s .overQuota
          | some n =>
            { state := s.makeOffer n p (membersOf ms) (if cls = 0x01 then .urgent else .routine)
                w.toNat sz.toNat hl.toNat
              outcome := .done
              conduit := some n
              fields := [byteOf n.val, (s.conduit n).generation + 1] }
        else refuse s .overQuota
      else refuse s .badArgument := by
  have hattached : (membersOf ms).all (fun m => decide (s.Attached m)) = true := by simpa using hm
  unfold offerAnswer
  rw [memberSetValid_iff.2 hms, hattached, classOf?_eq]
  by_cases hcls : cls = 0x01 ∨ cls = 0x02
  · have hvalid : (windowValid w && sizeValid sz && holdLimitValid hl) = decide (1 ≤ w.toNat ∧ w.toNat ≤ 16 ∧
        1 ≤ sz.toNat ∧ sz.toNat ≤ 1024 ∧ hl.toNat ≤ 1000) := by
      simp only [windowValid, sizeValid, holdLimitValid, ← Bool.decide_and, and_assoc]
      rfl
    rw [if_pos hcls]
    rw [hvalid]
    by_cases hr : 1 ≤ w.toNat ∧ w.toNat ≤ 16 ∧ 1 ≤ sz.toNat ∧ sz.toNat ≤ 1024 ∧ hl.toNat ≤ 1000
    · refine Eq.trans ?_ (if_pos ⟨hcls, hr⟩).symm
      rw [decide_eq_true hr]
      by_cases hq : s.chargedConduits p + 1 ≤ (s.partition.quotas.get p).conduits
      · have hallows : s.conduitQuotaAllows p = true := decide_eq_true hq
        rw [if_pos hq, hallows]
        rfl
      · have hdenies : s.conduitQuotaAllows p = false := decide_eq_false hq
        rw [if_neg hq, hdenies]
        rfl
    · rw [decide_eq_false hr]
      exact (if_neg (fun h => hr h.2)).symm
  · rw [if_neg hcls]
    exact (if_neg (fun h => hcls h.1)).symm

end OffersAndAnswers

end Sys2Proof.Machine

section Offer

open Sys2Proof Sys2Proof.Machine

/-- Settles O38. -/
theorem offerTakesTheLowestFreeSlot : Obligations.OfferTakesTheLowestFreeSlot := by
  intro s p ms cls w sz hl ha
  have refused {o : OutcomeCode} (ho : offerAnswer p ms cls w sz hl s = refuse s o) (hd : o ≠ .done) :
      exec (.offer p ms cls w sz hl) s = .next (s.replied p .offer o none none []) :=
    congrArg Host.Outcome.next (State.transact_refused ha nofun ho hd)
  refine ⟨fun hms => refused ?_ nofun, fun h16 hne hp => ⟨fun hm => refused ?_ nofun, fun hm => ?_⟩⟩
  · have : memberSetValid p ms = false := Bool.eq_false_iff.2 (fun h => hms (memberSetValid_iff.1 h))
    simp only [offerAnswer, this]
    rfl
  · have hall : (membersOf ms).all (fun m => decide (s.Attached m)) = false := by simpa using hm
    simp only [offerAnswer, memberSetValid_iff.2 ⟨h16, hne, hp⟩, hall]
    rfl
  · have hans := offerAnswer_eq (cls := cls) (w := w) (sz := sz) (hl := hl) ⟨h16, hne, hp⟩ hm
    refine ⟨fun hr => refused (by rw [hans, if_neg hr]) nofun, fun hcls hw1 hw16 hz1 hz1024 hl1000 => ?_⟩
    rw [if_pos ⟨hcls, hw1, hw16, hz1, hz1024, hl1000⟩] at hans
    refine ⟨fun hq => refused (by rw [hans, if_neg (by omega)]) nofun, fun n hq hn hmin => ?_⟩
    rw [if_pos hq, State.freeSlot?_eq hn hmin] at hans
    refine congrArg Host.Outcome.next ?_
    rw [State.transact_of_attached (c := .offer) ha nofun hans
      (by rw [State.port_congr (s.makeOffer_surroundings ..).ports]) (fun _ => ⟨nofun, nofun, nofun⟩)]
    simp only [s.makeOffer_eq n p (members := membersOf ms) (Port.nodup_filter _)]
    rfl

end Offer

namespace Sys2Proof.Machine

section Answers

variable {s : State} {p : Port} {b : Byte} {n : ConduitNo} {ch : Channel} {e : Endpoint} {d : Tick}
  {limit choice : Byte} {size : Half}

/-! #### Answers -/

theorem answerChoiceOf?_unnamed (h : choice ≠ 0x01 ∧ choice ≠ 0x02) : answerChoiceOf? choice = none := by
  unfold answerChoiceOf?
  rw [if_neg h.1, if_neg h.2]

section Pending

variable (hb : b.toNat = n.val) (hc : s.channel n = some ch) (hst : ch.stage = .offered d)
  (he : ch.endpoint? p = some e) (hp : e.answer = .pending)

include hb hc hst he hp

theorem answerAnswer_unnamed (h : choice ≠ 0x01 ∧ choice ≠ 0x02) :
    answerAnswer p b (s.conduit n).generation choice limit size s = refuse s .badArgument := by
  unfold answerAnswer
  rw [State.onConduit_eq hb hc]
  simp only [ne_eq, not_true, if_false, hst, he, hp, answerChoiceOf?_unnamed h]

theorem answerAnswer_accept : answerAnswer p b (s.conduit n).generation 0x01 limit size s =
    if windowValid limit && sizeValid size then
      { state := s.recordAccept n ch p limit.toNat size.toNat, outcome := .done }
    else refuse s .badArgument := by
  have hchoice : answerChoiceOf? 0x01 = some .accept := rfl
  unfold answerAnswer
  rw [State.onConduit_eq hb hc]
  simp only [ne_eq, not_true, if_false, hst, he, hp, hchoice]

theorem answerAnswer_decline : answerAnswer p b (s.conduit n).generation 0x02 limit size s =
    { state := s.failOffer n (.declined p) (ch.producer :: ch.memberPorts.filter (fun m => m != p))
      outcome := .done } := by
  have hchoice : answerChoiceOf? 0x02 = some .decline := rfl
  unfold answerAnswer
  rw [State.onConduit_eq hb hc]
  simp only [ne_eq, not_true, if_false, hst, he, hp, hchoice]

end Pending

theorem limits_valid_iff : (windowValid limit && sizeValid size) = true ↔
    1 ≤ limit.toNat ∧ limit.toNat ≤ 16 ∧ 1 ≤ size.toNat ∧ size.toNat ≤ 1024 := by
  rw [Bool.and_eq_true, windowValid_iff, sizeValid_iff, and_assoc]

/-- After an acceptance the answers still PENDING are those of other members. -/
theorem Channel.accepting_pending {w z : Nat} :
    (ch.accepting p w z).members.any (fun x => x.answer == .pending) = true ↔
      ∃ x ∈ ch.members, x.port ≠ p ∧ x.answer = .pending := by
  simp only [Channel.accepting, Channel.updateEndpoint, List.any_map, List.any_eq_true, Function.comp_apply, beq_iff_eq]
  refine exists_congr fun x => and_congr_right fun _ => ?_
  split <;> rename_i hx <;> simp [hx]

theorem State.recordAccept_pending {w z : Nat} (h : ∃ x ∈ ch.members, x.port ≠ p ∧ x.answer = .pending) :
    s.recordAccept n ch p w z = { s with conduits := s.withUse n (some (ch.accepting p w z)) } :=
  if_pos (Channel.accepting_pending.2 h)

/-- The last acceptance opens the conduit, and tells its producer and every member (R35). -/
theorem State.recordAccept_opens {w z : Nat} (hp : ch.producer ∉ ch.memberPorts) (hn : ch.memberPorts.Nodup)
    (h : ∀ x ∈ ch.members, x.port ≠ p → x.answer ≠ .pending) : s.recordAccept n ch p w z =
      { s with
        conduits := s.withUse n (some { ch.accepting p w z with stage := .opened (ch.accepting p w z).openingFlow })
        events := s.heard (fun q => if q = ch.producer ∨ q ∈ ch.memberPorts then
          [.offerResolved n (s.conduit n).generation (.opened (ch.accepting p w z).smallestWindow)] else []) } := by
  have hnone : ¬ (ch.accepting p w z).members.any (fun x => x.answer == .pending) = true :=
    fun hany => by
      obtain ⟨x, hx, hxp, hpending⟩ := Channel.accepting_pending.1 hany
      exact h x hx hxp hpending
  refine (if_neg hnone).trans ?_
  have hports := ch.accepting_ports p w z
  have hnd : (ch.producer :: (ch.accepting p w z).memberPorts).Nodup := by
    rw [hports]
    exact List.nodup_cons.2 ⟨hp, hn⟩
  refine (State.appendEvents_of_nodup _ _ hnd).trans ?_
  simp only [hports, List.mem_cons]
  rfl

end Answers

end Sys2Proof.Machine

section Answer

open Sys2Proof Sys2Proof.Machine

/-- Settles O39. -/
theorem answerAcceptsOrDeclines : Obligations.AnswerAcceptsOrDeclines := by
  constructor
  · intro s p b generation choice limit sz n ch ha hb hc
    have hans {g : Byte} : answerAnswer p b g choice limit sz s = _ := State.onConduit_eq hb hc
    have refused {o : OutcomeCode} (ho : answerAnswer p b generation choice limit sz s = refuse s o) (hd : o ≠ .done) :
        exec (.answer p b generation choice limit sz) s = .next (s.replied p .answer o (some n) none []) :=
      congrArg Host.Outcome.next (State.transact_conduit_refused ha hb nofun ho hd)
    refine ⟨fun hg => refused (hans.trans (if_pos hg)) nofun, fun hg => ⟨fun hf => refused ?_ nofun, fun hf => ?_⟩⟩
    · rw [hans, if_neg (not_not.2 hg)]
      cases hst : ch.stage with
      | offered d => exact absurd (by rw [hst]; rfl) hf
      | opened f => rfl
      | draining f => rfl
    · obtain ⟨d, hst⟩ : ∃ d, ch.stage = .offered d := by
        cases hst : ch.stage with
        | offered d => exact ⟨d, rfl⟩
        | opened f => rw [hst] at hf; cases hf
        | draining f => rw [hst] at hf; cases hf
      subst hg
      refine ⟨fun hp => refused ?_ nofun, fun e he => ⟨fun hpending => refused ?_ nofun, fun hpending hbad =>
        refused ?_ nofun⟩⟩
      · rw [hans]
        simp only [ne_eq, not_true, if_false, hst, Channel.endpoint?_eq_none.2 hp]
      · rw [hans]
        simp only [ne_eq, not_true, if_false, hst, he, hpending, not_false_iff, if_true]
      · obtain hnamed | ⟨rfl, hrange⟩ := hbad
        · exact answerAnswer_unnamed hb hc hst he hpending hnamed
        · exact (answerAnswer_accept hb hc hst he hpending).trans (if_neg (fun h => hrange (limits_valid_iff.1 h)))
  · intro s p b generation choice limit sz n ch answered d e ha hb hc hst hg he hpending hp hn hanswered
    have done {u : State} (ho : answerAnswer p b generation choice limit sz s = { state := u, outcome := .done })
        (hu : u.ports = s.ports) :
        exec (.answer p b generation choice limit sz) s = .next (u.replied p .answer .done (some n) none []) :=
      congrArg Host.Outcome.next (State.transact_conduit_done ha hb ⟨nofun, nofun, nofun, nofun⟩ ho hu)
    obtain rfl : answered = ch.accepting p limit.toNat sz.toNat := hanswered
    subst hg
    refine ⟨?_, ?_⟩
    · rintro rfl hw1 hw16 hz1 hz1024
      have haccept := (answerAnswer_accept (limit := limit) (size := sz) hb hc hst he hpending).trans
        (if_pos (limits_valid_iff.2 ⟨hw1, hw16, hz1, hz1024⟩))
      refine ⟨fun h => done (haccept.trans ?_) rfl, fun h => done (haccept.trans ?_) rfl⟩
      · rw [State.recordAccept_pending h]
      · rw [State.recordAccept_opens hp hn h]
        rfl
    · rintro rfl
      have hnd : (ch.producer :: ch.memberPorts.filter (fun m => m != p)).Nodup :=
        List.nodup_cons.2 ⟨fun h => hp (List.mem_of_mem_filter h), hn.filter _⟩
      refine done ((answerAnswer_decline hb hc hst he hpending).trans ?_) rfl
      rw [s.failOffer_eq n _ hnd]
      simp only [List.mem_cons, List.mem_filter, bne_iff_ne]

end Answer

namespace Sys2Proof.Machine

section Closing

variable {s : State} {n : ConduitNo} {ch : Channel} {f : Flow}

/-- The close of an OPEN conduit (R39): every member is told, and a conduit that queues and holds nothing ends. -/
theorem State.closed_eq (hst : ch.stage = .opened f) (hp : ch.producer ∉ ch.memberPorts) (hn : ch.memberPorts.Nodup) :
    ((s.setChannel n (some ch.drain)).appendEvents ch.memberPorts (.producerClosed n)).drainCheck n =
      if ch.drained then
        s.slotTo n none (s.pool.detach n) (fun q =>
          (if q ∈ ch.memberPorts then [.producerClosed n] else []) ++ s.endRecords n ch .drained q)
      else
        s.slotTo n (some { ch with stage := .draining { f with windowLatch := false } }) s.pool
          (fun q => if q ∈ ch.memberPorts then [.producerClosed n] else []) := by
  rw [State.appendEvents_of_nodup _ _ hn, Channel.drain_eq (f := f) (by rw [hst]; rfl)]
  exact State.drainCheck_slotTo_draining (ch := { ch with stage := .draining { f with windowLatch := false } }) rfl
    hp hn

end Closing

end Sys2Proof.Machine

section Close

open Sys2Proof Sys2Proof.Machine

/-- Settles O40. -/
theorem closeWithdrawsOrDrains : Obligations.CloseWithdrawsOrDrains := by
  constructor
  · intro s p b n ch ha hb hc hp
    exact congrArg Host.Outcome.next
      (State.transact_conduit_refused ha hb nofun (State.asProducer_refused hb hc hp) nofun)
  · intro s p b n ch ha hb hc hprod hpp hp hn
    have hans : closeAnswer p b s = _ := State.asProducer_eq hb hc hprod hpp
    have done {u : State} (ho : closeAnswer p b s = { state := u, outcome := .done }) (hu : u.ports = s.ports) :
        exec (.close p b) s = .next (u.replied p .close .done (some n) none []) :=
      congrArg Host.Outcome.next (State.transact_conduit_done ha hb ⟨nofun, nofun, nofun, nofun⟩ ho hu)
    refine ⟨fun d hst => done ?_ rfl, fun f hst hheld => done ?_ rfl, fun f hst hnone => done ?_ rfl, fun f hst => ?_⟩
    · rw [hans, hst]
      simp only [s.failOffer_eq n _ hn]
    · rw [hans, hst]
      simp only [State.closed_eq hst (hprod ▸ hp) hn, if_neg (Channel.undrained hheld)]
      rfl
    · rw [hans, hst]
      simp only [State.closed_eq hst (hprod ▸ hp) hn, if_pos (Channel.drained_iff.2 hnone), State.endRecords, hprod,
        hpp, and_true]
      rfl
    · exact congrArg Host.Outcome.next (State.transact_conduit_refused ha hb nofun (hans.trans (by rw [hst])) nofun)

end Close

namespace Sys2Proof.Machine

section Releasing

variable {s : State} {p : Port} {n : ConduitNo} {ch : Channel} {e : Endpoint}

/-! #### Releases and lapses -/

/-- One member's endpoint changed, as a change of the slot's members. -/
theorem State.updateEndpoint_of_member (hc : s.channel n = some ch) (he : ch.endpoint? p = some e)
    (hn : ch.memberPorts.Nodup) (f : Endpoint → Endpoint) : s.updateEndpoint n p f =
      { s with
        conduits := s.withUse n
          (some { ch with members := ch.members.map (fun x => if x.port = p then f e else x) }) } := by
  unfold State.updateEndpoint
  rw [s.updateChannel_of_some n hc, State.setChannel_eq, Channel.updateEndpoint_eq (e' := fun _ => f e) hn he rfl]
  rfl

theorem Endpoint.hold?_eq_none {q : Half} (h : ∀ d ∈ e.holds, d.sequence ≠ q) : e.hold? q = none :=
  List.find?_eq_none.2 (fun d hd => by simpa using h d hd)

theorem State.dueHold?_eq {q : Half} (hc : s.channel n = some ch) (he : ch.endpoint? p = some e) :
    s.dueHold? n p q = e.holds.find? (fun d => d.sequence == q && d.deadline == some s.time.counter) := by
  simp only [State.dueHold?, hc, he]

theorem State.lapseOffer_of_not_due (h : ∀ ch, s.channel n = some ch → ch.stage ≠ .offered s.time.counter) :
    s.lapseOffer n = s := by
  unfold State.lapseOffer
  split
  · rfl
  · rename_i ch hc
    split
    · rename_i d hst
      exact if_neg (fun hd => h ch hc (by rw [hst, hd]))
    · rfl
    · rfl

theorem State.lapseProposal_of_not_due (h : ∀ pr, s.partition.proposal = some pr → pr.deadline ≠ s.time.counter) :
    s.lapseProposal = s := by
  unfold State.lapseProposal
  split
  · rfl
  · rename_i pr hpr
    exact if_neg (h pr hpr)

theorem State.resolveProposal_eq (s : State) (pr : Proposal) (r : ProposalResult) : s.resolveProposal pr r =
    { s with
      partition := { s.partition with proposal := none }
      events := s.heard (fun v =>
        if pr.votes.get v ≠ .none then [.partitionResolved pr.id r s.partition.generation] else []) } := by
  have hv : pr.voters.Nodup := Port.nodup_filter _
  unfold State.resolveProposal
  rw [State.appendEvents_of_nodup _ _ hv]
  refine Eq.trans (State.tell_congr (g := fun v =>
    if pr.votes.get v ≠ .none then [.partitionResolved pr.id r s.partition.generation] else []) (fun q _ => ?_)) rfl
  simp [Proposal.voters]

end Releasing

end Sys2Proof.Machine

section ReleasesAndLapses

open Sys2Proof Sys2Proof.Machine

/-- Settles O49. -/
theorem releaseDropsTheHold : Obligations.ReleaseDropsTheHold := by
  refine ⟨fun s p b wanted ha => State.checksMember ha (by simp) rfl, fun s p b wanted n ch f e ha hb hc hf he hn => ?_⟩
  have hans : releaseAnswer p b wanted s = _ := State.asMember_eq hb hc he hf
  have hkept (g : Endpoint → Endpoint) := s.updateEndpoint_of_member hc he hn g
  refine ⟨fun d dropped hd hdropped => ?_, fun hnone hl => ?_, fun hnone hl => ?_⟩
  · have hhold : e.hold? wanted = some d := hd
    have hdrop : s.updateEndpoint n p (fun e => e.dropHold d) = dropped := (hkept _).trans hdropped.symm
    simp only [hhold, hdrop] at hans
    refine congrArg Host.Outcome.next
      (State.transact_conduit_done ha hb ⟨nofun, nofun, nofun, nofun⟩ hans ?_)
    rw [(State.drainCheck_surroundings _ _).ports, (State.claim_surroundings _ _ _).ports, hdropped]
  · have hlapsed : e.lapsed.contains wanted = true := by simpa using hl
    simp only [Endpoint.hold?_eq_none hnone, hlapsed, if_true, hkept] at hans
    refine congrArg Host.Outcome.next ?_
    rw [State.transact_refused_with (c := .release) ha nofun hans nofun rfl, conduitOf?_of_toNat hb]
  · have hunknown : e.lapsed.contains wanted = false := by simpa using hl
    simp only [Endpoint.hold?_eq_none hnone, hunknown] at hans
    exact congrArg Host.Outcome.next (State.transact_conduit_refused ha hb nofun hans nofun)

/-- Settles O60. -/
theorem deadlinesLapseWhenReached : Obligations.DeadlinesLapseWhenReached := by
  constructor
  · intro s n
    refine ⟨fun ch hc hst hp hn => congrArg Host.Outcome.next ?_,
      fun h => congrArg Host.Outcome.next (State.lapseOffer_of_not_due h),
      fun pr hpr hd => congrArg Host.Outcome.next
        ((State.lapseProposal_of_due hpr hd).trans (s.resolveProposal_eq pr _)),
      fun h => congrArg Host.Outcome.next (State.lapseProposal_of_not_due h)⟩
    rw [State.lapseOffer_of_due hc hst, s.failOffer_eq n _ (List.nodup_cons.2 ⟨hp, hn⟩)]
    simp only [List.mem_cons]
  · intro s n p q ch e hc he hn
    constructor
    · intro d listed lapsed hd hlapsed hlisted
      refine congrArg Host.Outcome.next ?_
      rw [State.lapseHold_eq ((State.dueHold?_eq hc he).trans hd), s.updateEndpoint_of_member hc he hn, hlisted,
        hlapsed]
      rfl
    · intro h
      refine congrArg Host.Outcome.next (State.lapseHold_of_none ((State.dueHold?_eq hc he).trans ?_))
      exact List.find?_eq_none.2 (fun d hd => by simpa using h d hd)

end ReleasesAndLapses

namespace Sys2Proof.Machine

section Leaving

variable {s : State} {p q : Port} {n m : ConduitNo} {h : Handle} {ch : Channel} {e : Endpoint} {f : Flow}

/-! #### What is left of a descriptor -/

/-- A descriptor that has lost this many references, detached from the slots that have ended. -/
def State.lessened (s : State) (h : Handle) (queue hold : Nat) (ended : ConduitNo → Bool) : Option Segment :=
  ((s.segment h).bind (fun g => g.less queue hold)).map (fun g => g.detachedFrom ended)

section Lessened

variable {i j : Nat} {ended : ConduitNo → Bool} {g : Segment} {x : Half} {r : Refs}

theorem State.lessened_of_free (hg : s.segment h = none) : s.lessened h i j ended = none := by
  rw [State.lessened, hg]; rfl

theorem State.lessened_of_filling (hg : s.segment h = some g) (hst : g.stage = .filling) :
    s.lessened h i j ended = some (g.detachedFrom ended) := by
  simp only [State.lessened, hg, Option.bind_some, Segment.less, hst, Option.map_some]

theorem State.lessened_of_freed (hg : s.segment h = some g) (hst : g.stage = .live x r)
    (hr : r.queue - i + (r.hold - j) + r.transfer = 0) : s.lessened h i j ended = none := by
  simp only [State.lessened, hg, Option.bind_some, Segment.less, hst, if_pos hr, Option.map_none]

theorem State.lessened_of_kept (hg : s.segment h = some g) (hst : g.stage = .live x r)
    (hr : r.queue - i + (r.hold - j) + r.transfer ≠ 0) : s.lessened h i j ended =
      some (Segment.detachedFrom
        { g with stage := .live x { queue := r.queue - i, hold := r.hold - j, transfer := r.transfer } } ended) := by
  simp only [State.lessened, hg, Option.bind_some, Segment.less, hst, if_neg hr, Option.map_some]

end Lessened

/-! #### What is left of a slot -/

/-- A slot put to another use, references taken away from its descriptors, and these records told: what a member's
leaving and a flush do, as each block of the part sees it. -/
structure SlotChanged (s t : State) (n : ConduitNo) (use : Option Channel) (queue hold : Handle → Nat)
    (records : Port → List Event) : Prop where
  surroundings : SameSurroundings s t
  elsewhere : ∀ m, m ≠ n → t.conduit m = s.conduit m
  generation : (t.conduit n).generation = (s.conduit n).generation
  channel : t.channel n = use
  segment : ∀ h, t.segment h = s.lessened h (queue h) (hold h) (fun m => m == n && use.isNone)
  freedBehind : s.pool.freeList <+: t.pool.freeList
  events : ∀ q, t.events.get q = s.hears q (records q)

theorem SlotChanged.of_slotTo {use : Option Channel} {P : Pool} {R : Port → List Event} {i j : Handle → Nat}
    (hd : ∀ h : Handle, P.descriptors[h] = s.lessened h (i h) (j h) (fun m => m == n && use.isNone))
    (hf : s.pool.freeList <+: P.freeList) : SlotChanged s (s.slotTo n use P R) n use i j R where
  surroundings := s.slotTo_surroundings use P R
  elsewhere m hm := (s.slotTo_conduit use P R m).trans (if_neg hm)
  generation := by rw [s.slotTo_conduit use P R n, if_pos rfl]
  channel := s.slotTo_channel_self use P R
  segment := hd
  freedBehind := hf
  events q := State.heard_get _ _ _

theorem Flow.reopens_iff {k : Nat} :
    f.reopens k = true ↔ f.windowLatch = true ∧ 1 ≤ k ∧ f.outstanding - k < f.window := by
  simp [Flow.reopens, and_assoc]

theorem Flow.latch_afterFreeing {k : Nat} :
    (f.windowLatch && !f.reopens k) = true ↔ f.windowLatch = true ∧ ¬ f.reopens k = true := by
  simp

/-- The flow fields of a slot after its freeing notices, its latch read off the fields they find. -/
theorem Channel.mapFlow_afterFreeing (hf : ch.stage.flow? = some f) (k : Nat) :
    ch.mapFlow (fun g => g.afterFreeing k) = ch.mapFlow (fun g =>
      { g with outstanding := g.outstanding - k, windowLatch := f.windowLatch && !f.reopens k }) :=
  Channel.mapFlow_congr (fun g hg => by rw [hf] at hg; cases hg; rfl)

theorem Channel.endsWithout_iff (hf : ch.stage.flow? = some f) : ch.endsWithout p = true ↔
    ∀ x ∈ ch.members, x.port ≠ p → ch.stage = .draining f ∧ x.queue = [] ∧ x.holds = [] := by
  cases hst : ch.stage with
  | offered d => rw [hst] at hf; cases hf
  | opened g => simp [Channel.endsWithout, hst]
  | draining g =>
    rw [hst] at hf
    cases hf
    simp [Channel.endsWithout, hst, or_iff_not_imp_left]

theorem State.useWithout_eq_none : s.useWithout ch e = none ↔ ch.endsWithout e.port = true := by
  unfold State.useWithout
  cases ch.endsWithout e.port <;> simp

/-- The reason a conduit ends with as a member goes (R43, R44). -/
def Channel.endReasonWithout (ch : Channel) (p : Port) : EndReason :=
  if ch.members.all (fun x => x.port == p) then .noConsumers else .drained

/-- The removal of a member, as each block sees it. -/
theorem State.removeMember_changes (hlaw : ConduitLaw s) (hrefs : ReferenceLaw s) (hc : s.channel n = some ch)
    (hf : ch.stage.flow? = some f) (hep : ch.endpoint? p = some e) (r : GoneReason) :
    SlotChanged s (s.removeMember n p r) n (s.useWithout ch e) (fun h => e.queue.count h) e.holdsOf
      (s.removalRecords n ch f e r) := by
  have hr := hrefs.refers hlaw
  obtain ⟨P, hP, ht⟩ := State.removeMember_slotTo hr r hc hf hep (hlaw n ch hc).producerApart
  obtain ⟨he, rfl⟩ := Channel.endpoint?_some hep
  have hnd := hr.sound.tidy.distinct n ch hc
  rw [ht]
  refine .of_slotTo (fun h => ?_) hP.freedBehind
  rw [hP.descriptors, State.drawn_of_member hc hnd he, State.drawn_of_member hc hnd he]
  rfl

/-! #### The records of a removal -/

theorem State.removalRecords_producer (hpp : ch.producerPresent = true) (r : GoneReason) :
    s.removalRecords n ch f e r ch.producer =
      [.consumerGone n e.port r] ++ (if f.reopens (s.freedWith e) = true then [.windowOpen n] else []) ++
      if ch.endsWithout e.port = true then
        [.conduitEnded n (s.conduit n).generation (ch.endReasonWithout e.port)]
      else [] := by
  simp [State.removalRecords, Channel.endReasonWithout, hpp]

theorem State.removalRecords_absent (hpp : ch.producerPresent = false) (hp : ch.producer ∉ ch.memberPorts)
    (r : GoneReason) : s.removalRecords n ch f e r ch.producer =
      if f.reopens (s.freedWith e) = true then [.windowOpen n] else [] := by
  simp [State.removalRecords, hpp, hp]

/-- A member that remains hears of the end alone, and the conduit ends DRAINED where one remains. -/
theorem State.removalRecords_member (hp : ch.producer ∉ ch.memberPorts) {x : Endpoint} (hx : x ∈ ch.members)
    (hne : x.port ≠ e.port) (r : GoneReason) : s.removalRecords n ch f e r x.port =
      if ch.endsWithout e.port = true then [.conduitEnded n (s.conduit n).generation .drained] else [] := by
  have hmem : x.port ∈ ch.memberPorts := List.mem_map_of_mem hx
  have hprod : x.port ≠ ch.producer := fun h => hp (h ▸ hmem)
  have hlast : ¬ ch.members.all (fun x => x.port == e.port) = true :=
    fun hall => hne (by simpa using List.all_eq_true.1 hall x hx)
  simp [State.removalRecords, hprod, hmem, hne, hlast]

theorem State.removalRecords_other (hq : q ≠ ch.producer) (ho : q = e.port ∨ q ∉ ch.memberPorts) (r : GoneReason) :
    s.removalRecords n ch f e r q = [] := by
  obtain rfl | ho := ho
  · simp [State.removalRecords, hq]
  · simp [State.removalRecords, hq, ho]

end Leaving

end Sys2Proof.Machine

section Leave

open Sys2Proof Sys2Proof.Machine

/-- Settles O41: the removal of the member, read off its slot, its descriptors and its records. -/
theorem leaveRemovesTheMember : Obligations.LeaveRemovesTheMember := by
  refine ⟨fun s p b ha => State.checksMember ha (by simp) rfl, ?_⟩
  intro s p b n ch e f freed last ended reopened hlaw hrefs ha hb hc hf hep hfreed hlast hended hreopened
  have hprod := (hlaw n ch hc).producerApart
  have ht := State.removeMember_changes hlaw hrefs hc hf hep .left
  have hacts := s.removeMember_acts p n .left
  have hans : leaveAnswer p b s = _ := State.asMember_eq hb hc hep hf
  obtain ⟨-, rfl⟩ := Channel.endpoint?_some hep
  obtain rfl : freed = s.freedWith e := hfreed
  obtain rfl : last = (ch.members.all (fun x => x.port == e.port) = true) := propext (hlast.trans (by simp))
  obtain rfl : ended = (ch.endsWithout e.port = true) := propext (hended.trans (Channel.endsWithout_iff hf).symm)
  obtain rfl : reopened = (f.reopens (s.freedWith e) = true) := propext (hreopened.trans Flow.reopens_iff.symm)
  obtain ⟨hports, hattention, hpartition, htime, hchoices, hpending⟩ := ht.surroundings
  refine ⟨_, congrArg Host.Outcome.next (State.transact_conduit_done ha hb ⟨nofun, nofun, nofun, nofun⟩ hans hports),
    hports, hattention, hpartition, htime, hchoices, hpending, ht.elsewhere, ht.generation,
    fun hends => ht.channel.trans (State.useWithout_of_ends hends), fun hstays => ⟨_, ?_, Flow.latch_afterFreeing⟩, ?_⟩
  · rw [ht.channel, State.useWithout_of_stays (by simpa using hstays)]
    exact congrArg some (Channel.mapFlow_afterFreeing (ch := ch.without e.port) hf _)
  rw [ht.channel]
  refine ⟨fun h hg => (ht.segment h).trans (State.lessened_of_free hg),
    fun h g hg hst => (ht.segment h).trans (State.lessened_of_filling hg hst),
    fun h g q r hg hst => ⟨fun hr => (ht.segment h).trans (State.lessened_of_freed hg hst hr),
      fun hr => (ht.segment h).trans (State.lessened_of_kept hg hst hr)⟩,
    ht.freedBehind, hacts.keeps (fun _ _ hl ha => ha.keeps_accounts hl),
    fun hpp hends hre => ?_, fun hpp hends hre => ?_,
    fun hpp hends hre => ⟨ch.endReasonWithout e.port, ?_, fun hl => if_pos hl, fun hl => if_neg hl⟩,
    fun hpp hends hre => ⟨ch.endReasonWithout e.port, ?_, fun hl => if_pos hl, fun hl => if_neg hl⟩,
    fun hpp hre => ?_, fun x hx hne => ?_, fun q hq ho => ?_⟩
  · rw [ht.events, State.removalRecords_producer hpp, if_neg hends, if_neg hre]
    rfl
  · rw [ht.events, State.removalRecords_producer hpp, if_neg hends, if_pos hre]
    rfl
  · rw [ht.events, State.removalRecords_producer hpp, if_pos hends, if_neg hre]
    rfl
  · rw [ht.events, State.removalRecords_producer hpp, if_pos hends, if_pos hre]
    rfl
  · rw [ht.events, State.removalRecords_absent hpp hprod, if_neg hre, State.hears_nil]
  · rw [ht.events, State.removalRecords_member hprod hx hne]
    simp only [State.useWithout_eq_none]
  · rw [ht.events, State.removalRecords_other hq ho, State.hears_nil]

end Leave

namespace Sys2Proof.Machine

section Flushing

variable {s : State} {n : ConduitNo} {h : Handle} {ch : Channel} {e : Endpoint} {f : Flow} {P : Pool}
  {R : Port → List Event}

/-! #### One slot through a run of changes -/

theorem State.slotTo_tell (use : Option Channel) (P : Pool) (R R' : Port → List Event) :
    (s.slotTo n use P R).tell R' = s.slotTo n use P (fun q => R q ++ R' q) := State.tell_tell _ _ _

theorem State.slotTo_setChannel (use use' : Option Channel) (P : Pool) (R : Port → List Event) :
    (s.slotTo n use P R).setChannel n use' = s.slotTo n use' P R := by
  have hnil : (s.slotTo n use P R).setChannel n use' = (s.slotTo n use P R).slotTo n use' P (fun _ => []) :=
    (State.tell_nil _).symm
  rw [hnil, State.slotTo_slotTo]
  simp only [List.append_nil]

theorem State.slotTo_same (hc : s.channel n = some ch) : s.slotTo n (some ch) s.pool (fun _ => []) = s :=
  (State.tell_nil _).trans (s.setChannel_same n hc)

/-- Descriptors that lose references name the conduits they named. -/
theorem Pool.Lost.conduit {a b : Pool} {i j : Handle → Nat} (x : a.Lost b i j) {g : Segment}
    (hg : b.descriptors[h] = some g) : ∃ g0, a.descriptors[h] = some g0 ∧ g.conduit = g0.conduit := by
  rw [x.descriptors] at hg
  obtain ⟨g0, hg0, hless⟩ := Option.bind_eq_some_iff.1 hg
  exact ⟨g0, hg0, Segment.less_conduit hless⟩

/-- The descriptors of a pool that lost references, behind the end of the slot where it ends. -/
theorem Pool.Lost.lessened {i j : Handle → Nat} (hl : s.pool.Lost P i j) (n : ConduitNo) (ended : Bool) (h : Handle) :
    (if ended = true then P.detach n else P).descriptors[h] =
      s.lessened h (i h) (j h) (fun m => m == n && ended) := by
  have hd : P.descriptors[h] = (s.segment h).bind (fun g => g.less (i h) (j h)) := hl.descriptors h
  cases ended with
  | true => simp only [if_true, Pool.detach_descriptors, hd, State.lessened, Bool.and_true]
  | false => simp [hd, State.lessened, Segment.detachedFrom_none]

theorem Segment.claimed_flush (g : Segment) : g.claimed .flush = g.less 1 0 := by
  unfold Segment.claimed Segment.less
  cases hst : g.stage <;> simp [Claim.change, Refs.total]

/-! #### Emptied queues -/

/-- A member with its delivery queue emptied. -/
def Endpoint.emptied (e : Endpoint) : Endpoint := { e with queue := [] }

/-- A slot with the delivery queues of these ports emptied. -/
def Channel.emptied (ch : Channel) (ps : List Port) : Channel :=
  { ch with members := ch.members.map (fun x => if x.port ∈ ps then x.emptied else x) }

theorem Channel.emptied_nil (ch : Channel) : ch.emptied [] = ch := by
  simp [Channel.emptied]

theorem Channel.emptied_cons (ch : Channel) (p : Port) (ps : List Port) :
    (ch.updateEndpoint p Endpoint.emptied).emptied ps = ch.emptied (p :: ps) := by
  simp only [Channel.emptied, Channel.updateEndpoint, List.map_map, List.mem_cons]
  congr 2
  funext x
  by_cases hx : x.port = p <;> by_cases hxs : x.port ∈ ps <;> simp [hx, hxs, Endpoint.emptied]

theorem Channel.emptied_all (ch : Channel) :
    ch.emptied ch.memberPorts = { ch with members := ch.members.map (fun e => { e with queue := [] }) } := by
  unfold Channel.emptied
  congr 1
  exact List.map_congr_left (fun x hx => if_pos (List.mem_map_of_mem hx))

/-- The record of a queue emptied by a flush (R81). -/
def Endpoint.flushRecords (n : ConduitNo) (q : Port) (e : Endpoint) : List Event :=
  if q = e.port ∧ e.queue ≠ [] then [.flushed n e.queue.length] else []

/-- The record of a window reopened by this many freeing notices (R62). -/
def Channel.reopenRecords (ch : Channel) (n : ConduitNo) (f : Flow) (freed : Nat) (q : Port) : List Event :=
  if q = ch.producer ∧ f.reopens freed = true then [.windowOpen n] else []

theorem Channel.reopenRecords_add (ch : Channel) (n : ConduitNo) (f : Flow) (i j : Nat) (q : Port) :
    ch.reopenRecords n f i q ++ ch.reopenRecords n (f.afterFreeing i) j q = ch.reopenRecords n f (i + j) q := by
  obtain ⟨hadd, honce⟩ := f.reopens_add i j
  unfold Channel.reopenRecords
  rw [hadd]
  by_cases hq : q = ch.producer
  · by_cases hi : f.reopens i = true
    · have hj : (f.afterFreeing i).reopens j = false := Bool.eq_false_iff.2 (fun h => honce ⟨hi, h⟩)
      simp [hq, hi, hj]
    · simp [hq, hi]
  · simp [hq]

/-- One member's queue emptied: its claims, and its record behind the WINDOW_OPEN they cause. -/
theorem State.flushMember_slotTo (hf : ch.stage.flow? = some f) (ha : P.Referenced)
    (hq : ∀ h ∈ e.queue, ∀ g, P.descriptors[h] = some g → g.conduit = some n) :
    ∃ P' k, (s.slotTo n (some ch) P R).flushMember n e =
        s.slotTo n (some ((ch.updateEndpoint e.port Endpoint.emptied).mapFlow (fun f => f.afterFreeing k))) P'
          (fun q => R q ++ (ch.reopenRecords n f k q ++ e.flushRecords n q)) ∧
      P.Lost P' (fun h => e.queue.count h) (fun _ => 0) ∧ P.occupied = P'.occupied + k := by
  have hupd : (s.slotTo n (some ch) P R).updateEndpoint n e.port (fun e => { e with queue := [] }) =
      s.slotTo n (some (ch.updateEndpoint e.port Endpoint.emptied)) P R := by
    unfold State.updateEndpoint
    rw [State.updateChannel_of_some _ n (s.slotTo_channel_self _ _ _), State.slotTo_setChannel]
    rfl
  obtain ⟨P', k, he, hl, ho⟩ := State.claims_lost (n := n) .flush 1 0 Segment.claimed_flush e.queue
    (s.slotTo n (some (ch.updateEndpoint e.port Endpoint.emptied)) P R) ha hq
  refine ⟨P', k, ?_, hl.congr (fun h => (Nat.one_mul _).symm) (fun h => (Nat.zero_mul _).symm), ho⟩
  have hnoticed : (s.slotTo n (some (ch.updateEndpoint e.port Endpoint.emptied)) P R).claims .flush e.queue =
      s.slotTo n (some ((ch.updateEndpoint e.port Endpoint.emptied).mapFlow (fun f => f.afterFreeing k))) P'
        (fun q => R q ++ ch.reopenRecords n f k q) := by
    have hc : ({ s.slotTo n (some (ch.updateEndpoint e.port Endpoint.emptied)) P R with pool := P' } : State).channel
        n = some (ch.updateEndpoint e.port Endpoint.emptied) := s.slotTo_channel_self _ _ _
    have hfl : (ch.updateEndpoint e.port Endpoint.emptied).stage.flow? = some f := hf
    have hm : (ch.updateEndpoint e.port Endpoint.emptied).mapFlow (fun _ => f.afterFreeing k) =
        (ch.updateEndpoint e.port Endpoint.emptied).mapFlow (fun f => f.afterFreeing k) :=
      Channel.mapFlow_congr (fun x hx => by rw [hfl] at hx; cases hx; rfl)
    rw [he, State.noticed_of_flow _ n hc hfl, hm]
    exact s.slotTo_slotTo (n := n) _ _ P' P' R _
  unfold State.flushMember
  simp only [hupd, hnoticed]
  by_cases hempty : e.queue = []
  · simp [hempty, Endpoint.flushRecords]
  · rw [if_neg (by simpa using hempty), State.appendEvent_eq_tell, State.slotTo_tell]
    simp [hempty, Endpoint.flushRecords]

/-- The members' queues emptied in turn, from an OPEN or DRAINING conduit (R81). -/
theorem State.flushMembers_slotTo (l : List Endpoint) : ∀ {ch : Channel} {f : Flow} {P : Pool} {R : Port → List Event},
    ch.stage.flow? = some f → P.Referenced →
    (∀ e ∈ l, ∀ h ∈ e.queue, ∀ g, P.descriptors[h] = some g → g.conduit = some n) →
    (∀ e ∈ l, e.port ≠ ch.producer) →
    ∃ P' k, l.foldl (fun s e => s.flushMember n e) (s.slotTo n (some ch) P R) =
        s.slotTo n (some ((ch.emptied (l.map (fun e => e.port))).mapFlow (fun f => f.afterFreeing k))) P'
          (fun q => R q ++ (ch.reopenRecords n f k q ++ l.flatMap (fun e => e.flushRecords n q))) ∧
      P.Lost P' (fun h => (l.map (fun e => e.queue.count h)).sum) (fun _ => 0) ∧ P.occupied = P'.occupied + k := by
  induction l with
  | nil =>
    intro ch f P R hf ha _ _
    refine ⟨P, 0, ?_, .refl ha, rfl⟩
    rw [List.map_nil, Channel.emptied_nil, Channel.mapFlow_eq_self (fun x _ => x.afterFreeing_zero)]
    refine State.tell_congr (fun q _ => ?_)
    simp [Channel.reopenRecords, Flow.reopens]
  | cons e l ih =>
    intro ch f P R hf ha hq hp
    obtain ⟨P', k, he, hl, ho⟩ := State.flushMember_slotTo (s := s) (n := n) (R := R) hf ha (hq e List.mem_cons_self)
    obtain ⟨P'', k', he', hl', ho'⟩ := ih
      (ch := (ch.updateEndpoint e.port Endpoint.emptied).mapFlow (fun f => f.afterFreeing k)) (f := f.afterFreeing k)
      (R := fun q => R q ++ (ch.reopenRecords n f k q ++ e.flushRecords n q))
      (by rw [Channel.mapFlow_stage, Stage.flow?_mapFlow]; exact congrArg (Option.map _) hf)
      (hl.referenced ha) (fun x hx h hh g hg => by
        obtain ⟨g0, hg0, hcon⟩ := hl.conduit hg
        rw [hcon]
        exact hq x (List.mem_cons_of_mem _ hx) h hh g0 hg0)
      (fun x hx => hp x (List.mem_cons_of_mem _ hx))
    refine ⟨P'', k + k', ?_, (hl.trans hl').congr (fun h => by simp) (fun h => rfl), by omega⟩
    have huse : (((ch.updateEndpoint e.port Endpoint.emptied).mapFlow (fun f => f.afterFreeing k)).emptied
        (l.map (fun e => e.port))).mapFlow (fun f => f.afterFreeing k') =
        (ch.emptied ((e :: l).map (fun e => e.port))).mapFlow (fun f => f.afterFreeing (k + k')) := by
      rw [List.map_cons, ← Channel.emptied_cons]
      simp only [Channel.mapFlow, Channel.emptied, Stage.mapFlow_mapFlow, Flow.afterFreeing_add]
    rw [List.foldl_cons, he, he', huse]
    refine State.tell_congr (fun q _ => ?_)
    have hsame : ((ch.updateEndpoint e.port Endpoint.emptied).mapFlow (fun f => f.afterFreeing k)).reopenRecords n
        (f.afterFreeing k) k' q = ch.reopenRecords n (f.afterFreeing k) k' q := rfl
    rw [hsame, List.flatMap_cons]
    by_cases hqp : q = ch.producer
    · have hnone : e.flushRecords n q = [] := if_neg (fun h => hp e List.mem_cons_self (h.1.symm.trans hqp))
      simp only [← ch.reopenRecords_add n f k k' q, hnone, List.nil_append, List.append_nil, List.append_assoc]
    · have hnone (f : Flow) (i : Nat) : ch.reopenRecords n f i q = [] := if_neg (fun h => hqp h.1)
      simp only [hnone, List.nil_append, List.append_assoc]

/-! #### A flush -/

/-- How many descriptors are freed as every delivery queue of a slot is emptied. -/
def State.freedByFlush (s : State) (ch : Channel) : Nat :=
  s.freedBy (fun h => (ch.members.map (fun e => e.queue.count h)).sum) (fun _ => 0)

/-- The conduit ends with a flush: it is DRAINING, and nothing is held (R41). -/
def Channel.endsFlushed (ch : Channel) : Bool :=
  match ch.stage with
  | .draining _ => ch.members.all (fun e => e.holds.isEmpty)
  | .offered _ | .opened _ => false

/-- The slot with its queues emptied, its flow fields after the freeing notices of the flush. -/
def State.flushedBy (s : State) (ch : Channel) : Channel :=
  (ch.emptied ch.memberPorts).mapFlow (fun f => f.afterFreeing (s.freedByFlush ch))

/-- The slot's use after a flush (R41, R81). -/
def State.useFlushed (s : State) (ch : Channel) : Option Channel :=
  if ch.endsFlushed then none else some (s.flushedBy ch)

/-- The records one port hears of a flush (R62, R81). -/
def State.flushRecords (s : State) (n : ConduitNo) (ch : Channel) (f : Flow) (q : Port) : List Event :=
  ch.reopenRecords n f (s.freedByFlush ch) q ++ ch.members.flatMap (fun e => e.flushRecords n q) ++
    if ch.endsFlushed then s.endRecords n ch .drained q else []

theorem State.useFlushed_eq_none : s.useFlushed ch = none ↔ ch.endsFlushed = true := by
  unfold State.useFlushed
  cases ch.endsFlushed <;> simp

theorem Channel.endsFlushed_iff (hf : ch.stage.flow? = some f) :
    ch.endsFlushed = true ↔ ch.stage = .draining f ∧ ∀ e ∈ ch.members, e.holds = [] := by
  cases hst : ch.stage with
  | offered d => rw [hst] at hf; cases hf
  | opened g => simp [Channel.endsFlushed, hst]
  | draining g =>
    rw [hst] at hf
    cases hf
    simp [Channel.endsFlushed, hst]

theorem Channel.emptied_ports (ch : Channel) (ps : List Port) : (ch.emptied ps).memberPorts = ch.memberPorts := by
  simp only [Channel.memberPorts, Channel.emptied, List.map_map]
  refine List.map_congr_left (fun x _ => ?_)
  by_cases hx : x.port ∈ ps <;> simp [hx, Endpoint.emptied]

theorem State.flushedBy_ports : (s.flushedBy ch).memberPorts = ch.memberPorts := ch.emptied_ports _

theorem State.flushedBy_drained (hst : ch.stage = .draining f) : (s.flushedBy ch).drained = ch.endsFlushed := by
  simp only [State.flushedBy, Channel.emptied_all, Channel.drained, Channel.mapFlow_members, Channel.endsFlushed, hst,
    List.all_map]
  rfl

theorem State.endRecords_flushedBy (r : EndReason) (q : Port) :
    s.endRecords n (s.flushedBy ch) r q = s.endRecords n ch r q := by
  unfold State.endRecords
  rw [State.flushedBy_ports]
  rfl

/-- The drain check behind a flush. -/
theorem State.flushed_drainCheck (hf : ch.stage.flow? = some f) (hp : ch.producer ∉ ch.memberPorts)
    (hn : ch.memberPorts.Nodup) :
    (s.slotTo n (some (s.flushedBy ch)) P (fun q =>
        ch.reopenRecords n f (s.freedByFlush ch) q ++ ch.members.flatMap (fun e => e.flushRecords n q))).drainCheck n =
      s.slotTo n (s.useFlushed ch) (if (s.useFlushed ch).isNone = true then P.detach n else P)
        (s.flushRecords n ch f) := by
  unfold State.useFlushed
  cases hst : ch.stage with
  | offered d => rw [hst] at hf; cases hf
  | opened g =>
    have hstage : (s.flushedBy ch).stage = .opened (g.afterFreeing (s.freedByFlush ch)) := by
      rw [State.flushedBy, Channel.mapFlow_stage]
      exact congrArg (Stage.mapFlow _) hst
    have hstays : ch.endsFlushed = false := by rw [Channel.endsFlushed, hst]
    rw [State.drainCheck_slotTo_opened hstage, hstays]
    refine State.tell_congr (fun q _ => ?_)
    simp [State.flushRecords, hstays]
  | draining g =>
    have hstage : (s.flushedBy ch).stage = .draining (g.afterFreeing (s.freedByFlush ch)) := by
      rw [State.flushedBy, Channel.mapFlow_stage]
      exact congrArg (Stage.mapFlow _) hst
    rw [State.drainCheck_slotTo_draining hstage (by rw [State.flushedBy_ports]; exact hp)
      (by rw [State.flushedBy_ports]; exact hn), State.flushedBy_drained hst]
    cases hends : ch.endsFlushed with
    | true =>
      refine State.tell_congr (fun q _ => ?_)
      simp [State.flushRecords, hends, State.endRecords_flushedBy]
    | false =>
      refine State.tell_congr (fun q _ => ?_)
      simp [State.flushRecords, hends]

/-- A flush as each block sees it. -/
theorem State.flush_changes (hlaw : ConduitLaw s) (hrefs : ReferenceLaw s) (hc : s.channel n = some ch)
    (hf : ch.stage.flow? = some f) :
    SlotChanged s ((ch.members.foldl (fun s e => s.flushMember n e) s).drainCheck n) n (s.useFlushed ch)
      (fun h => (ch.members.map (fun e => e.queue.count h)).sum) (fun _ => 0) (s.flushRecords n ch f) := by
  have hprod := (hlaw n ch hc).producerApart
  have hr := hrefs.refers hlaw
  have hnd := hr.sound.tidy.distinct n ch hc
  obtain ⟨P, k, he, hl, ho⟩ := State.flushMembers_slotTo (s := s) (n := n) (R := fun _ => []) ch.members hf
    hr.referenced (fun e he h hh g hg => hr.sound.named.queued n ch e h g hc he hh hg)
    (fun e he hp => hprod (hp ▸ List.mem_map_of_mem he))
  obtain rfl : s.freedByFlush ch = k := hl.freedBy ho
  rw [State.slotTo_same hc] at he
  simp only [List.nil_append] at he
  rw [he]
  refine (State.flushed_drainCheck hf hprod hnd).symm ▸ .of_slotTo (fun h => hl.lessened n _ h) ?_
  split
  · exact hl.freedBehind
  · exact hl.freedBehind

/-! #### Queue references of one conduit -/

/-- The queue entries of a descriptor stand in the slot it names (R12). -/
theorem State.queueEntries_of_named (hrefs : ReferenceLaw s) {g : Segment} (hg : s.segment h = some g)
    (hn : g.conduit = some n) (hc : s.channel n = some ch) :
    s.queueEntries h = (ch.members.map (fun e => e.queue.count h)).sum := by
  have hothers : (s.setChannel n none).tally (queueWeight h) = 0 := by
    refine total_eq_zero_iff.2 (fun i hi => ?_)
    show slotSum (queueWeight h) ((s.setChannel n none).channel ⟨i, hi⟩) = 0
    by_cases hin : (⟨i, hi⟩ : ConduitNo) = n
    · rw [hin, State.setChannel_channel_self]
      rfl
    · rw [State.setChannel_channel_ne _ _ hin]
      cases hc' : s.channel ⟨i, hi⟩ with
      | none => rfl
      | some c =>
        refine slotSum_eq_zero (fun e he => List.count_eq_zero.2 (fun hm => hin ?_))
        obtain ⟨g', hg', hn'⟩ := hrefs.queued _ c e h hc' he hm
        rw [hg] at hg'
        cases hg'
        rw [hn] at hn'
        exact (Option.some.inj hn').symm
  have hsum := State.tally_update (s := s) (t := s.setChannel n none) (w := queueWeight h) (n := n)
    (fun m hm => State.setChannel_channel_ne _ _ hm)
  rw [hothers, State.setChannel_channel_self, hc] at hsum
  rw [State.queueEntries_eq]
  exact hsum.symm.trans (Nat.zero_add _)

/-- A descriptor of another conduit stands in none of the slot's queues. -/
theorem ReferenceLaw.unqueued (hrefs : ReferenceLaw s) {g : Segment} (hg : s.segment h = some g)
    (hn : g.conduit ≠ some n) (hc : s.channel n = some ch) : (ch.members.map (fun e => e.queue.count h)).sum = 0 := by
  refine List.sum_eq_zero (fun x hx => ?_)
  obtain ⟨e, he, rfl⟩ := List.mem_map.1 hx
  refine List.count_eq_zero.2 (fun hm => hn ?_)
  obtain ⟨g', hg', hn'⟩ := hrefs.queued n ch e h hc he hm
  rw [hg] at hg'
  cases hg'
  exact hn'

theorem State.lessened_unchanged {ended : ConduitNo → Bool} {g : Segment} (hg : s.segment h = some g)
    (hr : g.Referenced) (hn : ∀ m, g.conduit = some m → ended m = false) : s.lessened h 0 0 ended = some g := by
  rw [State.lessened, hg, Option.bind_some, Segment.less_zero hr, Option.map_some, Segment.detachedFrom_of_not hn]

/-! #### The records of a flush -/

/-- Only the member on a port has records for it. -/
theorem Channel.flushRecords_member (hn : ch.memberPorts.Nodup) (he : e ∈ ch.members) :
    ch.members.flatMap (fun x => x.flushRecords n e.port) =
      if e.queue = [] then [] else [.flushed n e.queue.length] := by
  obtain ⟨l, l', hl⟩ := List.append_of_mem he
  have hapart : ∀ x ∈ l ++ l', x.flushRecords n e.port = [] := fun x hx => by
    refine if_neg (fun h => ?_)
    simp only [Channel.memberPorts, hl, List.map_append, List.map_cons] at hn
    have hmem := (List.nodup_cons.1 (List.nodup_middle.1 hn)).1
    rw [← List.map_append] at hmem
    exact hmem (h.1 ▸ List.mem_map_of_mem hx)
  rw [hl, List.flatMap_append, List.flatMap_cons,
    List.flatMap_eq_nil_iff.2 (fun x hx => hapart x (List.mem_append_left _ hx)),
    List.flatMap_eq_nil_iff.2 (fun x hx => hapart x (List.mem_append_right _ hx)), List.nil_append, List.append_nil]
  by_cases hq : e.queue = [] <;> simp [Endpoint.flushRecords, hq]

theorem Channel.flushRecords_other {q : Port} (hq : q ∉ ch.memberPorts) :
    ch.members.flatMap (fun x => x.flushRecords n q) = [] :=
  List.flatMap_eq_nil_iff.2 (fun _ hx => if_neg (fun ⟨h, _⟩ => hq (h ▸ List.mem_map_of_mem hx)))

theorem State.flushRecords_producer (hp : ch.producer ∉ ch.memberPorts) (hpp : ch.producerPresent = true) :
    s.flushRecords n ch f ch.producer =
      (if f.reopens (s.freedByFlush ch) = true then [.windowOpen n] else []) ++
        if ch.endsFlushed = true then [.conduitEnded n (s.conduit n).generation .drained] else [] := by
  simp [State.flushRecords, Channel.reopenRecords, Channel.flushRecords_other hp, State.endRecords, hpp]

theorem State.flushRecords_member (hp : ch.producer ∉ ch.memberPorts) (hn : ch.memberPorts.Nodup)
    (he : e ∈ ch.members) : s.flushRecords n ch f e.port =
      (if e.queue = [] then [] else [.flushed n e.queue.length]) ++
        if ch.endsFlushed = true then [.conduitEnded n (s.conduit n).generation .drained] else [] := by
  have hmem : e.port ∈ ch.memberPorts := List.mem_map_of_mem he
  have hprod : e.port ≠ ch.producer := fun h => hp (h ▸ hmem)
  simp [State.flushRecords, Channel.reopenRecords, Channel.flushRecords_member hn he, State.endRecords, hprod, hmem]

theorem State.flushRecords_other {q : Port} (hq : q ≠ ch.producer) (hm : q ∉ ch.memberPorts) :
    s.flushRecords n ch f q = [] := by
  simp [State.flushRecords, Channel.reopenRecords, Channel.flushRecords_other hm, State.endRecords, hq, hm]

end Flushing

end Sys2Proof.Machine

section Flush

open Sys2Proof Sys2Proof.Machine

/-- Settles O42: the emptied queues, read off the slot, its descriptors and its records. -/
theorem flushEmptiesTheDeliveryQueues : Obligations.FlushEmptiesTheDeliveryQueues := by
  constructor
  · intro s p b n ch ha hb hc
    refine ⟨fun hp => ?_, fun hp hpp d hst => ?_⟩
    · exact congrArg Host.Outcome.next
        (State.transact_conduit_refused ha hb nofun (State.asProducer_refused hb hc hp) nofun)
    · have hans : flushAnswer p b s = _ := State.asProducer_eq hb hc hp hpp
      exact congrArg Host.Outcome.next
        (State.transact_conduit_refused ha hb nofun (hans.trans (by rw [hst])) nofun)
  · intro s p b n ch f freed ended reopened hlaw hrefs ha hb hc hpres hf hfreed hended hreopened
    simp only [Channel.presentProducer, Bool.and_eq_true, beq_iff_eq] at hpres
    obtain ⟨rfl, hpp⟩ := hpres
    have hprod := (hlaw n ch hc).producerApart
    have hr := hrefs.refers hlaw
    have hnd := hr.sound.tidy.distinct n ch hc
    have ht := State.flush_changes hlaw hrefs hc hf
    have hacts := (s.foldl_acts (fun s e => s.flushMember_acts n e) ch.members).trans (State.drainCheck_acts _ n)
    have hans : flushAnswer ch.producer b s = _ := State.asProducer_eq hb hc rfl hpp
    obtain rfl : freed = s.freedByFlush ch := hfreed
    obtain rfl : ended = (ch.endsFlushed = true) := propext (hended.trans (Channel.endsFlushed_iff hf).symm)
    obtain rfl : reopened = (f.reopens (s.freedByFlush ch) = true) := propext (hreopened.trans Flow.reopens_iff.symm)
    obtain ⟨hports, hattention, hpartition, htime, hchoices, hpending⟩ := ht.surroundings
    have hflushed : flushAnswer ch.producer b s = {
        state := (ch.members.foldl (fun s e => s.flushMember n e) s).drainCheck n
        outcome := .done
        fields := [byteOf (ch.members.map (fun e => e.queue.length)).sum] } := by
      rw [hans]
      cases hst : ch.stage with
      | offered d => rw [hst] at hf; cases hf
      | opened g => rfl
      | draining g => rfl
    refine ⟨_, congrArg Host.Outcome.next
        (State.transact_conduit_done ha hb ⟨nofun, nofun, nofun, nofun⟩ hflushed hports),
      hports, hattention, hpartition, htime, hchoices, hpending, ht.elsewhere, ht.generation,
      fun hends => ht.channel.trans (if_pos hends), fun hstays => ⟨_, ?_, Flow.latch_afterFreeing⟩, ?_⟩
    · rw [ht.channel, State.useFlushed, if_neg hstays, State.flushedBy,
        Channel.mapFlow_afterFreeing (ch := ch.emptied ch.memberPorts) hf, Channel.emptied_all]
      rfl
    rw [ht.channel]
    simp only [State.useFlushed_eq_none]
    refine ⟨fun h hg => (ht.segment h).trans (State.lessened_of_free hg),
      fun h g hg hst => (ht.segment h).trans (State.lessened_of_filling hg hst),
      fun h g q r hg hst hn => ?_, fun h g hg hn => ?_, ht.freedBehind,
      Acts.keeps (fun _ _ hl ha => ha.keeps_accounts hl) hacts, fun e he => ?_, fun hre => ?_, fun hre => ?_,
      fun q hq hm => ?_⟩
    · have hqueue : r.queue = (ch.members.map (fun e => e.queue.count h)).sum :=
        (hrefs.live h g q r hg hst).1.trans (State.queueEntries_of_named hrefs hg hn hc)
      rw [ht.segment h, ← hqueue]
      refine ⟨fun h0 => State.lessened_of_freed hg hst (by omega), fun h0 => ?_⟩
      rw [State.lessened_of_kept hg hst (by omega), Nat.sub_self, Nat.sub_zero]
    · rw [ht.segment h, hrefs.unqueued hg hn hc]
      refine State.lessened_unchanged hg (hr.referenced h g hg) (fun m hm => ?_)
      have hmn : m ≠ n := fun e => hn (e ▸ hm)
      simp [hmn]
    · rw [ht.events, State.flushRecords_member hprod hnd he]
    · rw [ht.events, State.flushRecords_producer hprod hpp, if_neg hre, List.nil_append]
    · rw [ht.events, State.flushRecords_producer hprod hpp, if_pos hre]
    · rw [ht.events, State.flushRecords_other hq hm, State.hears_nil]

end Flush

/-! ### TAKE_ANY without an eligible endpoint -/

namespace Sys2Proof.Machine

section NothingEligible

variable {s : State} {p : Port} {n : ConduitNo}

/-- The port waits in a slot exactly where its endpoint in an OPEN or DRAINING conduit has a delivery queue that is not
empty (R69, R71). -/
theorem State.waiting?_isSome : (s.waiting? p n).isSome = true ↔
    ∃ ch e, s.channel n = some ch ∧ ch.stage.flow? ≠ none ∧ ch.endpoint? p = some e ∧ e.queue ≠ [] := by
  constructor
  · intro hw
    obtain ⟨⟨ch, e, h⟩, hw⟩ := Option.isSome_iff_exists.1 hw
    obtain ⟨hc, ⟨f, hf⟩, he, rest, hq⟩ := State.waiting?_some hw
    exact ⟨ch, e, hc, by simp [hf], he, by simp [hq]⟩
  · rintro ⟨ch, e, hc, hf, he, hq⟩
    obtain ⟨f, hf⟩ := Option.ne_none_iff_exists'.1 hf
    obtain ⟨h, rest, hq⟩ := List.exists_cons_of_ne_nil hq
    rw [State.waiting?_eq_some hc hf he hq]
    rfl

/-- With every waiting endpoint's hold set full the arbiter finds nothing (R69, R70). -/
theorem State.takeAnyChoice_eq_none (hfull : ∀ n ch e, s.channel n = some ch → ch.stage.flow? ≠ none →
    ch.endpoint? p = some e → e.queue ≠ [] → 4 ≤ e.holds.length) : s.takeAnyChoice p = none := by
  have none_eligible : ∀ cls n, s.eligible p cls n = false := fun cls n => by
    cases hw : s.waiting? p n with
    | none => simp [State.eligible, hw]
    | some x =>
      obtain ⟨ch, e, h⟩ := x
      obtain ⟨hc, ⟨f, hf⟩, he, rest, hq⟩ := State.waiting?_some hw
      have h4 := hfull n ch e hc (by simp [hf]) he (by simp [hq])
      have hroom : e.hasHoldRoom = false := decide_eq_false (Nat.not_lt.2 h4)
      simp [State.eligible, hw, hroom]
  have search : ∀ cls, (searchOrder (s.port p).rotation).find? (s.eligible p cls) = none := fun cls =>
    List.find?_eq_none.2 (fun n _ => by simp [none_eligible])
  simp only [State.takeAnyChoice, search, Option.or_none]

/-- What TAKE_ANY answers where the arbiter finds nothing (R71). -/
theorem takeAnyAnswer_of_no_choice (hn : s.takeAnyChoice p = none) : takeAnyAnswer p s =
    if ∃ n, (s.waiting? p n).isSome = true then refuse s .holdsFull else refuse s .empty := by
  simp only [takeAnyAnswer, hn, List.any_eq_true, mem_allConduits, true_and]

end NothingEligible

end Sys2Proof.Machine

open Sys2Proof Sys2Proof.Machine in
/-- Settles O47: the arbiter finds nothing, and the refusal says whether the port waits in some slot. -/
theorem takeAnyRefusesWithoutAnEligibleEndpoint : Obligations.TakeAnyRefusesWithoutAnEligibleEndpoint := by
  intro s p ha hfull
  have hans := takeAnyAnswer_of_no_choice (State.takeAnyChoice_eq_none hfull)
  refine ⟨fun ⟨n, hwait⟩ => ?_, fun hempty => ?_⟩
  · rw [if_pos ⟨n, State.waiting?_isSome.2 hwait⟩] at hans
    exact congrArg Host.Outcome.next (State.transact_refused ha (by simp) hans (by simp))
  · rw [if_neg] at hans
    · exact congrArg Host.Outcome.next (State.transact_refused ha (by simp) hans (by simp))
    · rintro ⟨n, hwait⟩
      obtain ⟨ch, e, hc, hf, he, hq⟩ := State.waiting?_isSome.1 hwait
      exact hq (hempty n ch e hc hf he)

/-! ### Refused reads -/

namespace Sys2Proof.Machine

section RefusedReads

variable {s : State} {p : Port}

/-- A read that does not answer DONE is a refusal, without an effect (R66). -/
def Answer.RefusesOrReads (s : State) (a : Answer) : Prop := a.outcome ≠ .done → a = refuse s a.outcome

theorem Answer.RefusesOrReads.refuse (s : State) (o : OutcomeCode) : (Machine.refuse s o).RefusesOrReads s :=
  fun _ => rfl

theorem Answer.RefusesOrReads.of_done {a : Answer} (h : a.outcome = .done) : a.RefusesOrReads s :=
  fun hd => absurd h hd

theorem takeAnswer_refusesOrReads (p : Port) (b : Byte) (s : State) : (takeAnswer p b s).RefusesOrReads s :=
  State.asMember_elim (fun o _ => .refuse s o) (fun n ch e f _ _ _ => by
    split
    · exact .refuse s _
    · split
      · exact .refuse s _
      · exact .of_done rfl)

theorem takeAnyAnswer_refusesOrReads (p : Port) (s : State) : (takeAnyAnswer p s).RefusesOrReads s := by
  unfold takeAnyAnswer
  split
  · split <;> exact .refuse s _
  · split
    · exact .refuse s _
    · exact .of_done rfl

theorem peekAnswer_refusesOrReads (p : Port) (b : Byte) (s : State) : (peekAnswer p b s).RefusesOrReads s :=
  State.asMember_elim (fun o _ => .refuse s o) (fun n ch e f _ _ _ => by
    split
    · exact .refuse s _
    · exact .of_done rfl)

theorem readHeldAnswer_refusesOrReads (p : Port) (b : Byte) (q : Half) (s : State) :
    (readHeldAnswer p b q s).RefusesOrReads s :=
  State.asMember_elim (fun o _ => .refuse s o) (fun n ch e f _ _ _ => by
    split
    · exact .refuse s _
    · exact .of_done rfl)

/-- The four reads are framed alike, and each refuses without an effect or reads. -/
theorem exec_of_read {i : Instr} {c : Command} {args : List Byte} (h : i.frame = some (c, p, args))
    (hc : c ∈ readCommands) : ∃ owner : State → Answer, ∀ s,
      exec i s = .next (s.transact p c args (namedConduit c args) owner) ∧ (owner s).RefusesOrReads s := by
  cases i with
  | take _ b => cases h; exact ⟨_, fun s => ⟨rfl, takeAnswer_refusesOrReads p b s⟩⟩
  | takeAny _ => cases h; exact ⟨_, fun s => ⟨rfl, takeAnyAnswer_refusesOrReads p s⟩⟩
  | peek _ b => cases h; exact ⟨_, fun s => ⟨rfl, peekAnswer_refusesOrReads p b s⟩⟩
  | readHeld _ b x => cases h; exact ⟨_, fun s => ⟨rfl, readHeldAnswer_refusesOrReads p b x s⟩⟩
  | _ => cases h <;> exact absurd hc (by decide)

/-- A read frame on a port that awaits one, whose record does not turn out DONE, was refused (R66, R154). -/
theorem State.transact_of_refused_read {c : Command} {args : List Byte} {named : Option ConduitNo}
    {owner : State → Answer} {shown : ShownState} (hc : c ∈ readCommands) (ha : s.Awaits p shown)
    (ho : (owner s).RefusesOrReads s)
    (hd : ((s.transact p c args named owner).port p).outcome.outcome ≠ .done) :
    ∃ o, s.transact p c args named owner = s.replied p c o named none [] := by
  have hkind : ¬ (c = .status ∨ c = .detach) := by rintro (rfl | rfl) <;> exact absurd hc (by decide)
  obtain ⟨x, hx, he⟩ := State.transact_of_awaits ha c args named owner
  have key : ∀ a : Answer, a.RefusesOrReads s → s.transact p c args named owner = State.accept p c named x a →
      ∃ o, s.transact p c args named owner = s.replied p c o named none [] := fun a hr h => by
    have hout : a.outcome ≠ .done := by
      rwa [h, (State.accept_port_self p c named x a).1, if_neg (fun e => hkind e.1)] at hd
    have ha := hr hout
    refine ⟨a.outcome, ?_⟩
    rw [h, State.accept_eq_replied (by rw [ha]; exact hx) (fun e => absurd e hout), if_neg hout, ha]
    rfl
  cases hadm : admission c shown with
  | some r => exact key _ (.refuse s r) (by rw [he, hadm])
  | none => exact key _ ho (by rw [he, hadm])

/-- Behind a refusal without fields zeros are shifted out, and no payload (R66, R157). -/
theorem State.replied_shiftsRefusal {c : Command} {o : OutcomeCode} {named : Option ConduitNo} {shown : ShownState}
    (ha : s.Awaits p shown) (hc : c.replyPosition = 4) :
    (s.replied p c o named none []).shiftedOut p 4 = some o.byte ∧
      ∀ position, 5 ≤ position → (s.replied p c o named none []).shiftedOut p position = some 0 := by
  obtain ⟨x, hx⟩ := ha.transaction
  have hport : ((s.replied p c o named none []).port p).transaction = some { x with
      phase := .reply
      byteCount := 1 + c.argumentCount
      replyPosition := 4
      reply := [o.byte] } := by
    simp [State.replied, PortController.replied, PortController.replying, hx, hc]
  have hidle : (s.replied p c o named none []).transferHandle? p = none := by
    simp [State.transferHandle?, State.replied, PortController.replied, PortController.replying, hx]
  refine ⟨by simp [State.shiftedOut, hport], fun position h5 => ?_⟩
  have h1 : ¬ position < 4 := by omega
  have h2 : ¬ position - 4 < 1 := by omega
  simp [State.shiftedOut, hport, State.transferByte, hidle, h1, h2]

end RefusedReads

end Sys2Proof.Machine

open Sys2Proof Sys2Proof.Machine in
/-- Settles O29: a read whose record does not turn out DONE was refused, by the port-state check or by the delivery
engine, and a refusal leaves all but the port's own controller. -/
theorem refusedReadsChangeNothing : Obligations.RefusedReadsChangeNothing := by
  intro i c p args shown s t hi hc ha ht hd
  have hread : c ∈ readCommands := by simpa [readCommands] using hc
  have hposition : c.replyPosition = 4 := by obtain rfl | rfl | rfl | rfl := hc <;> rfl
  obtain ⟨owner, howner⟩ := exec_of_read hi hread
  obtain ⟨hexec, hrefuses⟩ := howner s
  cases hexec.symm.trans ht
  obtain ⟨o, ho⟩ := State.transact_of_refused_read hread ha hrefuses hd
  have hrecord : ((s.replied p c o (namedConduit c args) none []).port p).outcome =
      { outcome := o, command := c.code, conduit := namedConduit c args, handle := none } := by
    rw [State.replied, State.setPort_port_self]
    rfl
  rw [ho, hrecord]
  exact ⟨rfl, State.replied_shiftsRefusal ha hposition⟩

/-! ### What the owning blocks' answers leave around them -/

namespace Sys2Proof.Machine

section AnswerSurroundings

variable {s : State} {p : Port}

/-! #### Conduit Table and delivery engine -/

theorem State.recordAccept_surroundings (s : State) (n : ConduitNo) (ch : Channel) (p : Port) (window size : Nat) :
    SameSurroundings s (s.recordAccept n ch p window size) := by
  unfold State.recordAccept
  simp only
  split
  · exact s.setChannel_surroundings n _
  · exact (s.setChannel_surroundings n _).trans (State.appendEvents_surroundings _ _ _)

theorem State.startFill_surroundings (s : State) (h : Handle) (p : Port) (n : ConduitNo) (length : Nat) :
    SameSurroundings s (s.startFill h p n length) :=
  (s.withPool_surroundings _).trans (State.updateChannel_surroundings _ n _)

theorem offerAnswer_surroundings (p : Port) (ms cl w : Byte) (sz hl : Half) (s : State) :
    SameSurroundings s (offerAnswer p ms cl w sz hl s).state := by
  unfold offerAnswer
  split
  · exact .refl s
  · split
    · exact .refl s
    · split
      · exact .refl s
      · split
        · exact .refl s
        · split
          · exact .refl s
          · split
            · exact .refl s
            · exact s.makeOffer_surroundings _ p _ _ _ _ _

theorem answerAnswer_surroundings (p : Port) (b g ch wl : Byte) (sl : Half) (s : State) :
    SameSurroundings s (answerAnswer p b g ch wl sl s).state :=
  s.onConduit_keeps (.refl s) (fun n x _ => by
    split
    · exact .refl s
    · split
      · exact .refl s
      · exact .refl s
      · split
        · exact .refl s
        · split
          · exact .refl s
          · split
            · exact .refl s
            · exact s.failOffer_surroundings n _ _
            · split
              · exact s.recordAccept_surroundings n x p _ _
              · exact .refl s)

theorem closeAnswer_surroundings (p : Port) (b : Byte) (s : State) : SameSurroundings s (closeAnswer p b s).state :=
  s.asProducer_keeps p (.refl s) (fun n ch _ _ => by
    split
    · exact s.failOffer_surroundings n _ _
    · exact ((s.setChannel_surroundings n _).trans (State.appendEvents_surroundings _ _ _)).trans
        (State.drainCheck_surroundings _ n)
    · exact .refl s)

theorem leaveAnswer_surroundings (p : Port) (b : Byte) (s : State) : SameSurroundings s (leaveAnswer p b s).state :=
  s.asMember_keeps p (.refl s) (fun n _ _ _ _ _ => s.removeMember_surroundings n p _)

theorem flushAnswer_surroundings (p : Port) (b : Byte) (s : State) : SameSurroundings s (flushAnswer p b s).state :=
  s.asProducer_keeps p (.refl s) (fun n ch _ _ => by
    have flushed := (SameSurroundings.foldl (fun s e => s.flushMember_surroundings n e) ch.members s).trans
      (State.drainCheck_surroundings _ n)
    split
    · exact .refl s
    · exact flushed
    · exact flushed)

theorem postAnswer_surroundings (p : Port) (b : Byte) (length : Half) (s : State) :
    SameSurroundings s (postAnswer p b length s).state :=
  s.asProducer_keeps p (.refl s) (fun n ch _ _ => by
    split
    · exact .refl s
    · exact .refl s
    · split
      · exact .refl s
      · split
        · exact .refl s
        · split
          · exact s.updateChannel_surroundings n _
          · split
            · exact .refl s
            · split
              · exact .refl s
              · split
                · exact .refl s
                · exact s.startFill_surroundings _ p n _)

theorem takeAnswer_surroundings (p : Port) (b : Byte) (s : State) : SameSurroundings s (takeAnswer p b s).state :=
  s.asMember_keeps p (.refl s) (fun n ch e _ _ _ => by
    split
    · exact .refl s
    · split
      · exact .refl s
      · exact s.takeHead_surroundings p n ch _)

theorem peekAnswer_surroundings (p : Port) (b : Byte) (s : State) : SameSurroundings s (peekAnswer p b s).state :=
  s.asMember_keeps p (.refl s) (fun n ch e _ _ _ => by
    split
    · exact .refl s
    · exact s.claim_surroundings _ _)

theorem readHeldAnswer_surroundings (p : Port) (b : Byte) (q : Half) (s : State) :
    SameSurroundings s (readHeldAnswer p b q s).state :=
  s.asMember_keeps p (.refl s) (fun n ch e _ _ _ => by
    split
    · exact .refl s
    · exact s.claim_surroundings _ _)

theorem releaseAnswer_surroundings (p : Port) (b : Byte) (q : Half) (s : State) :
    SameSurroundings s (releaseAnswer p b q s).state :=
  s.asMember_keeps p (.refl s) (fun n ch e _ _ _ => by
    split
    · exact ((s.updateEndpoint_surroundings n p _).trans (State.claim_surroundings _ _ _)).trans
        (State.drainCheck_surroundings _ n)
    · split
      · exact s.updateEndpoint_surroundings n p _
      · exact .refl s)

/-- A TAKE_ANY refuses, or is a TAKE that moves the rotation point (R70). -/
theorem takeAnyAnswer_cases (p : Port) (s : State) : (takeAnyAnswer p s).state = s ∨
    ∃ n u, SameSurroundings s u ∧ (takeAnyAnswer p s).state = u.setPort p { s.port p with rotation := n } := by
  unfold takeAnyAnswer
  split
  · split <;> exact .inl rfl
  · split
    · exact .inl rfl
    · rename_i n _ _ ch _ h _
      have taken := s.takeHead_surroundings p n ch h
      exact .inr ⟨n, _, taken, by rw [← State.port_congr taken.ports p]⟩

/-! #### The Time Base behind the other units -/

theorem nextEventAnswer_time (p : Port) (s : State) : (nextEventAnswer p s).state.time = s.time := by
  unfold nextEventAnswer
  split <;> rfl

theorem attendAnswer_time (p : Port) (target vector : Byte) (argument : Half) (s : State) :
    (attendAnswer p target vector argument s).state.time = s.time := by
  unfold attendAnswer
  split
  · rfl
  · split
    · rfl
    · split
      · rfl
      · split <;> rfl

theorem acceptAttnAnswer_time (p : Port) (s : State) : (acceptAttnAnswer p s).state.time = s.time := by
  unfold acceptAttnAnswer
  split
  · rfl
  · exact (State.appendEvent_surroundings _ _ _).time

theorem withdrawAttnAnswer_time (p : Port) (target : Byte) (s : State) :
    (withdrawAttnAnswer p target s).state.time = s.time := by
  unfold withdrawAttnAnswer
  split
  · rfl
  · split
    · rfl
    · split <;> rfl

theorem State.resolveProposal_time (s : State) (pr : Proposal) (r : ProposalResult) :
    (s.resolveProposal pr r).time = s.time := (State.appendEvents_surroundings _ _ _).time

theorem State.adoptProposal_time (s : State) (pr : Proposal) : (s.adoptProposal pr).time = s.time := by
  unfold State.adoptProposal
  split
  · exact s.resolveProposal_time pr _
  · exact State.resolveProposal_time _ pr _

theorem State.abandonProposal_time (s : State) (p : Port) : (s.abandonProposal p).time = s.time := by
  unfold State.abandonProposal
  split
  · rfl
  · exact s.resolveProposal_time _ _

theorem State.makeProposal_time (s : State) (p : Port) (q : PerPort Quota) : (s.makeProposal p q).time = s.time := by
  unfold State.makeProposal
  simp only
  split
  · exact (State.appendEvents_surroundings _ _ _).time
  · rw [State.adoptProposal_time, (State.appendEvents_surroundings _ _ _).time]

theorem proposeAnswer_time (p : Port) (q : PerPort QuotaArgument) (s : State) :
    (proposeAnswer p q s).state.time = s.time := by
  unfold proposeAnswer
  simp only
  split
  · rfl
  · split
    · rfl
    · split
      · rfl
      · split
        · rfl
        · exact s.makeProposal_time p _

theorem voteAnswer_time (p : Port) (id choice : Byte) (s : State) : (voteAnswer p id choice s).state.time = s.time := by
  unfold voteAnswer
  split
  · rfl
  · split
    · rfl
    · split
      · rfl
      · split
        · rfl
        · exact s.resolveProposal_time _ _
        · simp only
          split
          · rfl
          · exact State.adoptProposal_time _ _

theorem cancelProposalAnswer_time (p : Port) (id : Byte) (s : State) :
    (cancelProposalAnswer p id s).state.time = s.time := by
  unfold cancelProposalAnswer
  split
  · rfl
  · split
    · rfl
    · split
      · rfl
      · exact s.resolveProposal_time _ _

theorem State.attach_time (s : State) (p : Port) : (s.attach p).time = s.time := by
  unfold State.attach
  simp only
  rw [(State.appendEvents_surroundings _ _ _).time, State.abandonProposal_time]
  rfl

theorem State.departAttention_time (s : State) (p : Port) : (s.departAttention p).time = s.time :=
  (SameSurroundings.foldl (fun s _ => s.appendEvent_surroundings _ _) (s.attention.queues.get p) s).time

theorem State.depart_time (s : State) (p : Port) (cause : DepartureCause) (left : PortState) :
    (s.depart p cause left).time = s.time := by
  unfold State.depart
  simp only
  rw [(State.appendEvents_surroundings _ _ _).time, show ∀ u : State, (u.clearEvents p).time = u.time from fun _ => rfl,
    State.abandonProposal_time, State.departAttention_time, (State.departConduits_surroundings _ p).time]
  rfl

end AnswerSurroundings

end Sys2Proof.Machine

/-! ### The law of the port controllers

It speaks of each port for itself, and every row but those of the Time Base and of the global reset changes one
controller. So each row's proof is about one port: where it stands, and what its transaction and its record say. -/

namespace Sys2Proof.Machine

section PortControllers

variable {s t u : State} {p : Port}

/-! #### One port -/

/-- Where a port stands, by its reset line and the phase of the part (R72, R133, R142, R184). -/
structure Stands (s : State) (p : Port) : Prop where
  heldByReset : (s.port p).resetAsserted = true → (s.port p).state = .held
  heldBeforeOperation : s.time.reset ≠ .running → (s.port p).state = .held
  heldOnlyByReset : s.time.reset = .running → (s.port p).state = .held → (s.port p).resetAsserted = true
  rotationRests : ¬ s.Attached p → (s.port p).rotation = 23

/-- What a port's transaction and its outcome record say (R134, R148, R162, R163). -/
structure Speaks (s : State) (p : Port) : Prop where
  silentWhileIgnored : s.shownState p = none → (s.port p).transaction = none
  idleWhileDetached : ¬ s.Attached p → s.fillHandle? p = none ∧ s.transferHandle? p = none
  readEnds : (s.port p).outcome.isRead = true → s.transferHandle? p = none → (s.port p).outcome.handle = none
  fillsArePosts : ∀ x, (s.port p).transaction = some x → x.phase = .payload →
    (s.port p).outcome.outcome = .done ∧ (s.port p).outcome.command = Command.post.code

/-- The law of the port controllers at one port. -/
structure PortLawAt (s : State) (p : Port) : Prop extends Stands s p, Speaks s p

theorem portLaw_iff : PortLaw s ↔ ∀ p, PortLawAt s p where
  mp h p := ⟨⟨h.heldByReset p, fun hr => h.heldBeforeOperation hr p, fun hr => h.heldOnlyByReset hr p,
    h.rotationRests p⟩, ⟨h.silentWhileIgnored p, h.idleWhileDetached p, h.readEnds p, h.fillsArePosts p⟩⟩
  mpr h := ⟨fun p => (h p).heldByReset, fun hr p => (h p).heldBeforeOperation hr, fun hr p => (h p).heldOnlyByReset hr,
    fun p => (h p).silentWhileIgnored, fun p => (h p).rotationRests, fun p => (h p).idleWhileDetached,
    fun p => (h p).readEnds, fun p => (h p).fillsArePosts⟩

theorem PortLaw.atPort (h : PortLaw s) (p : Port) : PortLawAt s p := portLaw_iff.1 h p

/-- A port ignores select while it is HELD, but for the start-up interval with its line released (R134, R184). -/
theorem State.shownState_eq_none : s.shownState p = none ↔
    (s.port p).state = .held ∧ ¬ (s.time.reset = .startUp ∧ (s.port p).resetAsserted = false) := by
  unfold State.shownState
  cases (s.port p).state <;> simp

theorem State.shownState_of_held_released (hst : (s.port p).state = .held) (hr : s.time.reset ≠ .startUp) :
    s.shownState p = none := State.shownState_eq_none.2 ⟨hst, fun h => hr h.1⟩

theorem State.shownState_of_asserted (hst : (s.port p).state = .held) (hline : (s.port p).resetAsserted = true) :
    s.shownState p = none := State.shownState_eq_none.2 ⟨hst, fun h => by simp [hline] at h⟩

theorem State.not_attached_of_held (hst : (s.port p).state = .held) : ¬ s.Attached p := fun ha => by
  rw [State.Attached, hst] at ha
  cases ha

/-- A port stands where it stood while its state, its line, its rotation point and the phase of the part stay. -/
theorem Stands.carry (h : Stands s p) (hphase : t.time.reset = s.time.reset)
    (hstate : (t.port p).state = (s.port p).state) (hline : (t.port p).resetAsserted = (s.port p).resetAsserted)
    (hrotation : (t.port p).rotation = (s.port p).rotation) : Stands t p where
  heldByReset := by rw [hstate, hline]; exact h.heldByReset
  heldBeforeOperation := by rw [hstate, hphase]; exact h.heldBeforeOperation
  heldOnlyByReset := by rw [hstate, hline, hphase]; exact h.heldOnlyByReset
  rotationRests := by rw [State.Attached, hstate, hrotation]; exact h.rotationRests

/-- A HELD port with its line asserted stands rightly in every phase. -/
theorem Stands.of_asserted (hst : (s.port p).state = .held) (hline : (s.port p).resetAsserted = true)
    (hrotation : (s.port p).rotation = 23) : Stands s p :=
  ⟨fun _ => hst, fun _ => hst, fun _ _ => hline, fun _ => hrotation⟩

/-- Without a transaction there is only the record, which names no transfer. -/
theorem Speaks.of_silent (hx : (s.port p).transaction = none)
    (hr : (s.port p).outcome.isRead = true → (s.port p).outcome.handle = none) : Speaks s p where
  silentWhileIgnored _ := hx
  idleWhileDetached _ := ⟨State.fillHandle?_silent hx, State.transferHandle?_silent hx⟩
  readEnds h _ := hr h
  fillsArePosts x h := by rw [hx] at h; cases h

theorem PortLawAt.congr (h : PortLawAt s p) (hport : t.port p = s.port p) (hphase : t.time.reset = s.time.reset) :
    PortLawAt t p where
  toStands := h.toStands.carry hphase (by rw [hport]) (by rw [hport]) (by rw [hport])
  silentWhileIgnored := by
    rw [State.shownState_eq_none, hport, hphase, ← State.shownState_eq_none]
    exact h.silentWhileIgnored
  idleWhileDetached := by
    rw [State.Attached, hport, State.fillHandle?_congr hport, State.transferHandle?_congr hport]
    exact h.idleWhileDetached
  readEnds := by rw [hport, State.transferHandle?_congr hport]; exact h.readEnds
  fillsArePosts := by rw [hport]; exact h.fillsArePosts

theorem PortLaw.congr (h : PortLaw s) (hports : t.ports = s.ports) (hphase : t.time.reset = s.time.reset) : PortLaw t :=
  portLaw_iff.2 (fun p => (h.atPort p).congr (State.port_congr hports p) hphase)

/-- One controller changed. -/
theorem PortLaw.change (h : PortLaw s) (htime : t.time = s.time) (elsewhere : ∀ q, q ≠ p → t.port q = s.port q)
    (hp : PortLawAt t p) : PortLaw t :=
  portLaw_iff.2 (fun q => if hq : q = p then hq ▸ hp else (h.atPort q).congr (elsewhere q hq) (by rw [htime]))

/-! #### The end of a transaction -/

/-- The transaction of a port is over and its record names no transfer; no other controller has changed. -/
structure Ended (s t : State) (p : Port) : Prop where
  time : t.time = s.time
  elsewhere : ∀ q, q ≠ p → t.port q = s.port q
  here : ∃ o : OutcomeRecord, t.port p = { s.port p with outcome := o, transaction := none } ∧
    (o.isRead = true → o.handle = none)

theorem Ended.silent (h : Ended s t p) : (t.port p).transaction = none := by
  obtain ⟨o, ho, -⟩ := h.here
  rw [ho]

theorem Ended.portLaw (h : Ended s t p) (hp : PortLaw s) : PortLaw t := by
  obtain ⟨o, ho, hread⟩ := h.here
  refine hp.change h.time h.elsewhere ⟨(hp.atPort p).toStands.carry (by rw [h.time]) ?_ ?_ ?_, .of_silent h.silent ?_⟩
  all_goals rw [ho]
  exact hread

/-- What a port has in flight is over with its record as it stands. -/
theorem Ended.endTransaction {o : OutcomeRecord} (hs : SameSurroundings s u)
    (ho : o.isRead = true → o.handle = none) :
    Ended s ((u.setPort p { u.port p with outcome := o }).endTransaction p) p := by
  have hport : ∀ q, u.port q = s.port q := State.port_congr hs.ports
  refine ⟨hs.time, fun q hq => ?_, o, ?_, ho⟩
  · rw [State.endTransaction_port_ne _ hq, State.setPort_port_ne _ _ hq, hport]
  · rw [State.endTransaction, State.setPort_port_self, State.setPort_port_self, hport]

/-- A transaction that holds no transfer ends with the record it has. -/
theorem PortLaw.ended (hp : PortLaw s) (hX : s.transferHandle? p = none) : Ended s (s.endTransaction p) p := by
  have := Ended.endTransaction (p := p) (.refl s) (fun h => hp.readEnds p h hX)
  rwa [State.setPort_port_eq] at this

theorem PortLaw.endTransfer_ended (hp : PortLaw s) : Ended s ((s.endTransfer p).endTransaction p) p := by
  unfold State.endTransfer
  split
  · rename_i hX; exact hp.ended hX
  · exact .endTransaction (s.claim_surroundings .transferEnd _) (fun _ => rfl)

/-- A completed fill leaves the record of a POST, which is no read's (R162). -/
theorem PortLaw.completeFill_ended (hp : PortLaw s) {h : Handle} (hF : s.fillHandle? p = some h) (count : Nat) :
    Ended s ((s.completeFill p h count).endTransaction p) p := by
  obtain ⟨x, hx, hph, -⟩ := State.transaction_of_fill hF
  obtain ⟨-, hpost⟩ := hp.fillsArePosts p x hx hph
  have written : ∀ u o, SameSurroundings s u → Ended s ((u.setOutcome p o).endTransaction p) p := fun u o hs =>
    .endTransaction hs (fun hr => by
      have hcommand : (u.port p).outcome.command = Command.post.code := by rw [State.port_congr hs.ports, hpost]
      simp only [OutcomeRecord.isRead, hcommand, Bool.and_eq_true] at hr
      exact absurd hr.2 (by decide))
  unfold State.completeFill
  split
  · exact hp.ended (State.no_transfer_of_phase hx (by simp [hph]))
  · split
    · exact written _ _ (s.freeDescriptor_surroundings h)
    · split
      · exact written _ _ (s.freeDescriptor_surroundings h)
      · exact written _ _ (s.deliver_surroundings h _ _ _ _)

theorem State.endTruncated_ended (s : State) (p : Port) (code : Byte) : Ended s (s.endTruncated p code) p := by
  refine ⟨rfl, fun q hq => State.setPort_port_ne _ _ hq,
    { outcome := .truncated, command := code, conduit := none, handle := none }, ?_, fun _ => rfl⟩
  rw [State.endTruncated, State.setPort_port_self]

theorem PortLaw.releaseSelect_ended (hp : PortLaw s) (p : Port) : Ended s (s.releaseSelect p) p := by
  unfold State.releaseSelect
  split
  · rename_i hx
    exact ⟨rfl, fun _ _ => rfl, (s.port p).outcome, by rw [← hx],
      fun hr => hp.readEnds p hr (State.transferHandle?_silent hx)⟩
  · rename_i x hx
    have noX : x.phase ≠ .reply → s.transferHandle? p = none := State.no_transfer_of_phase hx
    split
    · rename_i hph; exact hp.ended (noX (by simp [hph]))
    · exact s.endTruncated_ended p _
    · exact hp.endTransfer_ended
    · rename_i hph
      split
      · exact hp.ended (noX (by simp [hph]))
      · rename_i h hF; exact hp.completeFill_ended hF _

theorem PortLaw.abort_ended (hp : PortLaw s) (p : Port) : Ended s (s.abort p) p := by
  unfold State.abort
  split
  · rename_i h hF
    obtain ⟨x, hx, hph, -⟩ := State.transaction_of_fill hF
    have hs := s.freeDescriptor_surroundings h
    have hX := State.no_transfer_of_phase hx (by simp [hph])
    have := Ended.endTransaction (p := p) hs (fun hr => hp.readEnds p hr hX)
    rwa [← State.port_congr hs.ports p, State.setPort_port_eq] at this
  · exact hp.endTransfer_ended

/-! #### The acceptance instant -/

/-- What a command frame does: nothing, payload, or an acceptance from the command or the arguments phase, of the
port-state check's refusal or of the owning block's answer (R148, R154, R157, R162). -/
theorem State.transact_cases (s : State) (p : Port) (c : Command) (args : List Byte) (named : Option ConduitNo)
    (owner : State → Answer) :
    s.transact p c args named owner = s ∨ (∃ bytes, s.transact p c args named owner = s.receivePayload p bytes) ∨
    ∃ x shown, s.shownState p = some shown ∧ (s.port p).transaction = some x ∧ x.phase ≠ .reply ∧ x.phase ≠ .payload ∧
      s.transact p c args named owner =
        State.accept p c named x (match admission c shown with | some r => refuse s r | none => owner s) := by
  unfold State.transact
  split
  · rename_i shown x hshown hx
    split
    · exact .inl rfl
    · exact .inr (.inl ⟨_, rfl⟩)
    all_goals
      rename_i hph
      split
      · exact .inr (.inr ⟨x, shown, hshown, hx, by simp [hph], by simp [hph],
        by cases admission c shown <;> rfl⟩)
      · exact .inl rfl
  · exact .inl rfl

/-- What an owning block may answer on a port that shows a state: other ports and the Time Base stay, the port is HELD
as it was and its line stays, and a port that is not ATTACHED behind it rests and gets no handle. -/
structure Proper (s : State) (p : Port) (c : Command) (a : Answer) : Prop where
  time : a.state.time = s.time
  elsewhere : ∀ q, q ≠ p → a.state.port q = s.port q
  line : (a.state.port p).resetAsserted = (s.port p).resetAsserted
  held : (a.state.port p).state = .held ↔ (s.port p).state = .held
  rotation : ¬ a.state.Attached p → (a.state.port p).rotation = 23
  handle : ¬ a.state.Attached p → a.handle = none
  record : c = .status ∨ c = .detach → (a.state.port p).outcome.isRead = true → (a.state.port p).outcome.handle = none

/-- An answer that leaves port controllers and Time Base alone. -/
theorem PortLaw.proper (hp : PortLaw s) {c : Command} {a : Answer} (hX : s.transferHandle? p = none)
    (hports : a.state.ports = s.ports) (htime : a.state.time = s.time) (hh : a.handle = none ∨ s.Attached p) :
    Proper s p c a := by
  have hport : ∀ q, a.state.port q = s.port q := State.port_congr hports
  refine ⟨htime, fun q _ => hport q, ?_, ?_, ?_, fun hna => ?_, fun _ => ?_⟩
  · rw [hport]
  · rw [hport]
  · rw [State.Attached, hport]; exact hp.rotationRests p
  · rw [State.Attached, hport] at hna
    exact hh.resolve_right hna
  · rw [hport]; exact fun hr => hp.readEnds p hr hX

/-- State, line and rotation point of a port behind an acceptance are the answer's. -/
theorem State.accept_stands (p : Port) (c : Command) (named : Option ConduitNo) (x : Transaction) (a : Answer) :
    ((State.accept p c named x a).port p).state = (a.state.port p).state ∧
      ((State.accept p c named x a).port p).resetAsserted = (a.state.port p).resetAsserted ∧
      ((State.accept p c named x a).port p).rotation = (a.state.port p).rotation := by
  unfold State.accept State.enterReply
  rw [State.setPort_port_self, State.writeOutcome_port, if_pos rfl]
  exact ⟨rfl, rfl, rfl⟩

theorem State.accept_time (p : Port) (c : Command) (named : Option ConduitNo) (x : Transaction) (a : Answer) :
    (State.accept p c named x a).time = a.state.time := by
  unfold State.accept State.enterReply State.writeOutcome
  split <;> rfl

theorem OutcomeRecord.isRead_post {r : OutcomeRecord} (h : r.command = Command.post.code) : r.isRead = false := by
  have : (readCommands.map Command.code).contains Command.post.code = false := by decide
  simp only [OutcomeRecord.isRead, h, this, Bool.and_false]

/-- The transaction and the record that an acceptance writes agree: behind a POST the fill's, behind a read its
transfer's, and no handle otherwise (R148, R162, R163). -/
theorem Proper.speaks {c : Command} {a : Answer} (ha : Proper s p c a) {shown : ShownState}
    (hshown : s.shownState p = some shown) (named : Option ConduitNo) (x : Transaction) :
    Speaks (State.accept p c named x a) p := by
  obtain ⟨hout, y, hy, hph, -⟩ := State.accept_port_self p c named x a
  obtain ⟨hstate, hline, -⟩ := State.accept_stands p c named x a
  have posted : c = .post ∧ a.outcome = .done → ((State.accept p c named x a).port p).outcome =
      { outcome := a.outcome, command := c.code, conduit := a.conduit.or named, handle := a.handle } :=
    fun hc => by rw [hout, if_neg (by rintro ⟨e | e, -⟩ <;> cases e.symm.trans hc.1)]
  refine ⟨fun hn => ?_, fun hna => ?_, fun hr hX => ?_, fun z hz hzp => ?_⟩
  · rw [State.shownState_eq_none, hstate, hline, ha.held, ha.line, State.accept_time, ha.time,
      ← State.shownState_eq_none, hshown] at hn
    cases hn
  · rw [State.Attached, hstate] at hna
    exact (State.accept_idle (ha.handle hna) ha.record).symm
  · by_cases hc : c = .post ∧ a.outcome = .done
    · rw [OutcomeRecord.isRead_post (by rw [posted hc, hc.1])] at hr
      cases hr
    · rw [if_neg hc] at hph
      simpa [State.transferHandle?, hy, hph, hr] using hX
  · rw [hy] at hz
    cases hz
    have hc : c = .post ∧ a.outcome = .done := by
      by_contra hc
      rw [hph, if_neg hc] at hzp
      cases hzp
    rw [posted hc]
    exact ⟨hc.2, by rw [hc.1]⟩

theorem Proper.accept {c : Command} {a : Answer} (ha : Proper s p c a) (hp : PortLaw s) {shown : ShownState}
    (hshown : s.shownState p = some shown) (named : Option ConduitNo) (x : Transaction) :
    PortLaw (State.accept p c named x a) := by
  obtain ⟨hstate, hline, hrotation⟩ := State.accept_stands p c named x a
  have htime : (State.accept p c named x a).time = s.time := (State.accept_time p c named x a).trans ha.time
  refine hp.change htime (fun q hq => (State.accept_port_ne hq).trans (ha.elsewhere q hq))
    ⟨⟨?_, ?_, ?_, ?_⟩, ha.speaks hshown named x⟩
  · rw [hstate, hline, ha.line, ha.held]; exact hp.heldByReset p
  · rw [hstate, htime, ha.held]; exact fun hr => hp.heldBeforeOperation hr p
  · rw [hstate, hline, ha.line, htime, ha.held]; exact fun hr => hp.heldOnlyByReset hr p
  · rw [State.Attached, hstate, hrotation]; exact ha.rotation

theorem PortLaw.receivePayload (hp : PortLaw s) (p : Port) (bytes : List Byte) :
    PortLaw (s.receivePayload p bytes) := by
  have handles := s.receivePayload_handles p bytes p
  cases hF : s.fillHandle? p with
  | none => rw [State.receivePayload_of_no_fill bytes hF]; exact hp
  | some h =>
    obtain ⟨x, hx, hph, -⟩ := State.transaction_of_fill hF
    rw [State.receivePayload_of_fill bytes hF hx] at handles ⊢
    refine hp.change (p := p) rfl (fun q hq => ?_) ⟨(hp.atPort p).toStands.carry rfl ?_ ?_ ?_, fun hn => ?_, ?_, ?_, ?_⟩
    any_goals rw [State.setSegment_port, State.setPort_port_self]
    · rw [State.setSegment_port, State.setPort_port_ne _ _ hq]
    · rw [State.shownState_eq_none, State.setSegment_port, State.setPort_port_self] at hn
      have := hp.silentWhileIgnored p (State.shownState_eq_none.2 hn)
      rw [hx] at this
      cases this
    · rw [handles.1, handles.2, State.Attached, State.setSegment_port, State.setPort_port_self]
      exact hp.idleWhileDetached p
    · rw [handles.2]; exact hp.readEnds p
    · exact fun _ _ _ => hp.fillsArePosts p x hx hph

theorem PortLaw.transact (hp : PortLaw s) (c : Command) (args : List Byte) (named : Option ConduitNo)
    (owner : State → Answer)
    (ho : ∀ shown, s.shownState p = some shown → admission c shown = none → s.transferHandle? p = none →
      Proper s p c (owner s)) : PortLaw (s.transact p c args named owner) := by
  obtain he | ⟨bytes, he⟩ | ⟨x, shown, hshown, hx, hreply, -, he⟩ := s.transact_cases p c args named owner
  · rw [he]; exact hp
  · rw [he]; exact hp.receivePayload p bytes
  · rw [he]
    have hX := State.no_transfer_of_phase hx hreply
    refine Proper.accept ?_ hp hshown named x
    cases hadm : admission c shown with
    | some r => exact hp.proper hX rfl rfl (.inl rfl)
    | none => exact ho shown hshown hadm hX

/-! #### Answers that change the controller -/

/-- No port that is HELD has a command admitted (R155). -/
theorem not_held_of_admission {c : Command} {shown : ShownState} (hs : s.shownState p = some shown)
    (ha : admission c shown = none) : (s.port p).state ≠ .held := fun hst => by
  unfold State.shownState at hs
  simp only [hst] at hs
  split at hs
  · cases hs; cases ha
  · cases hs

/-- A command that a DETACHED port has refused is admitted on an ATTACHED port alone (R135). -/
theorem attached_of_admission {c : Command} {shown : ShownState} (hc : admission c .detached ≠ none)
    (hs : s.shownState p = some shown) (ha : admission c shown = none) : s.Attached p := by
  cases shown with
  | starting => cases ha
  | detached => exact absurd ha hc
  | attached => exact State.attached_of_shown hs

theorem takeAnyAnswer_proper (hp : PortLaw s) (hX : s.transferHandle? p = none) (hat : s.Attached p) :
    Proper s p .takeAny (takeAnyAnswer p s) := by
  obtain he | ⟨n, u, hs, he⟩ := takeAnyAnswer_cases p s
  · exact hp.proper hX (by rw [he]) (by rw [he]) (.inr hat)
  · have hport : (takeAnyAnswer p s).state.port p = { s.port p with rotation := n } := by
      rw [he, State.setPort_port_self]
    have hstays : (takeAnyAnswer p s).state.Attached p := by rw [State.Attached, hport]; exact hat
    refine ⟨by rw [he]; exact hs.time, fun q hq => ?_, by rw [hport], by rw [hport], fun h => absurd hstays h,
      fun h => absurd hstays h, by simp⟩
    rw [he, State.setPort_port_ne _ _ hq, State.port_congr hs.ports]

theorem State.attach_proper (hst : (s.port p).state ≠ .held) :
    Proper s p .attach { state := s.attach p, outcome := .done } := by
  have hport : (s.attach p).port p = { s.port p with state := .attached, rotation := 23 } := by
    rw [State.port, s.attach_ports p, PerPort.get_set, if_pos rfl]
  refine ⟨s.attach_time p, (s.attach_lasting p).elsewhere, ?_, ?_, fun _ => ?_, fun _ => rfl, by simp⟩ <;>
    simp only [hport]
  exact iff_of_false (by simp) hst

theorem State.detach_proper (hst : (s.port p).state ≠ .held) :
    Proper s p .detach { state := s.depart p .detach .detached, outcome := .done } := by
  have hport : (s.depart p .detach .detached).port p =
      { s.port p with state := .detached, outcome := OutcomeRecord.initial, rotation := 23 } := by
    rw [State.port, s.depart_ports p, PerPort.get_set, if_pos rfl]
  refine ⟨s.depart_time p _ _, (s.depart_lasting p).elsewhere, ?_, ?_, fun _ => ?_, fun _ => rfl, fun _ _ => ?_⟩ <;>
    simp only [hport]
  · exact iff_of_false (by simp) hst
  · rfl

/-! #### Select and the framing refusals -/

theorem PortLaw.selectAsserted (hp : PortLaw s) (h : execSelectAsserted p s = .next t) : PortLaw t := by
  unfold execSelectAsserted at h
  simp only [Host.Outcome.next.injEq] at h
  subst h
  have released := hp.releaseSelect_ended p
  split
  · exact hp
  · rename_i shown hshown
    obtain ⟨o, ho, -⟩ := released.here
    have hp' := released.portLaw hp
    refine hp'.change (p := p) rfl (fun q hq => State.setPort_port_ne _ _ hq)
      ⟨(hp'.atPort p).toStands.carry rfl ?_ ?_ ?_, fun hn => ?_, fun _ => ?_, fun hr _ => ?_, fun x hx hph => ?_⟩
    any_goals rw [State.setPort_port_self]
    · rw [State.shownState_eq_none, State.setPort_port_self, State.setPort_time, released.time, ho,
        ← State.shownState_eq_none, hshown] at hn
      cases hn
    · simp [State.fillHandle?, State.transferHandle?]
    · rw [State.setPort_port_self] at hr
      exact hp'.readEnds p hr (State.transferHandle?_silent released.silent)
    · rw [State.setPort_port_self] at hx
      cases hx
      cases hph

theorem PortLaw.refuseCode (hp : PortLaw s) (p : Port) (code : Byte) : PortLaw (s.refuseCode p code) := by
  unfold State.refuseCode
  split
  · rename_i shown x hshown hx
    split
    · exact hp
    · exact hp
    · exact hp.receivePayload p _
    · refine hp.change (p := p) rfl (fun q hq => State.setPort_port_ne _ _ hq)
        ⟨(hp.atPort p).toStands.carry rfl ?_ ?_ ?_, fun hn => ?_, fun _ => ?_, fun _ _ => ?_, fun z hz hph => ?_⟩
      any_goals rw [State.setPort_port_self]
      · rw [State.shownState_eq_none, State.setPort_port_self] at hn
        cases hshown.symm.trans (State.shownState_eq_none.2 hn)
      · simp [State.fillHandle?, State.transferHandle?]
      · rw [State.setPort_port_self] at hz
        cases hz
        cases hph
  · exact hp

theorem PortLaw.refuseTruncated (hp : PortLaw s) (p : Port) (code : Byte) (args : List Byte) :
    PortLaw (s.refuseTruncated p code args) := by
  unfold State.refuseTruncated
  split
  · split
    · exact (s.endTruncated_ended p code).portLaw hp
    · exact hp
  · exact hp

/-! #### The reset lines -/

/-- A port whose line is asserted ends HELD, silent and at rest, and its record names no transfer. -/
theorem execPortResetAsserted_port (hp : PortLaw s) (h : execPortResetAsserted p s = .next t) : t.time = s.time ∧
    ∃ o : OutcomeRecord, t.port p =
      { state := .held, resetAsserted := true, outcome := o, rotation := 23, transaction := none } ∧
      (o.isRead = true → o.handle = none) := by
  have initial : OutcomeRecord.initial.isRead = true → OutcomeRecord.initial.handle = none := fun _ => rfl
  cases hst : (s.port p).state with
  | attached =>
    simp only [execPortResetAsserted, hst, Host.Outcome.next.injEq] at h
    subst h
    refine ⟨(State.depart_time _ p _ _).trans (hp.abort_ended p).time, _, ?_, initial⟩
    rw [State.setResetLine, State.setPort_port_self, State.abort_depart_port]
  | detached =>
    cases h.symm.trans (exec_portResetAsserted_detached hp hst)
    exact ⟨rfl, _, State.setPort_port_self _ _ _, initial⟩
  | held =>
    have hrotation := hp.rotationRests p (State.not_attached_of_held hst)
    cases hshown : s.shownState p with
    | some shown =>
      cases h.symm.trans (exec_portResetAsserted_starting hst (by rw [hshown]; rfl))
      exact ⟨rfl, _, by simp only [State.setPort_port_self, hst, hrotation], initial⟩
    | none =>
      have hsilent := hp.silentWhileIgnored p hshown
      cases h.symm.trans (exec_portResetAsserted_ignored hshown)
      exact ⟨rfl, _, by simp only [State.setPort_port_self, hst, hrotation, hsilent],
        fun hr => hp.readEnds p hr (State.transferHandle?_silent hsilent)⟩

theorem PortLaw.portResetAsserted (hp : PortLaw s) (h : execPortResetAsserted p s = .next t) : PortLaw t := by
  obtain ⟨htime, o, hport, hread⟩ := execPortResetAsserted_port hp h
  refine hp.change htime (execPortResetAsserted_controllers hp h).1 ⟨.of_asserted ?_ ?_ ?_, .of_silent ?_ ?_⟩
  all_goals rw [hport]
  exact hread

/-- A HELD port with its line asserted has been silent, so whatever it shows behind the release it has no transaction
(R134, R142, R184). -/
theorem PortLaw.portResetReleased (hp : PortLaw s) (h : execPortResetReleased p s = .next t) : PortLaw t := by
  cases hline : (s.port p).resetAsserted with
  | false => cases h.symm.trans (exec_portResetReleased_unasserted hline); exact hp
  | true =>
    have hst := hp.heldByReset p hline
    have hsilent := hp.silentWhileIgnored p (State.shownState_of_asserted hst hline)
    have hrotation := hp.rotationRests p (State.not_attached_of_held hst)
    have speaks : ∀ c : PortController, c.transaction = (s.port p).transaction → c.outcome = (s.port p).outcome →
        Speaks (s.setPort p c) p := fun c hx ho => by
      refine .of_silent ?_ ?_ <;> rw [State.setPort_port_self]
      · rw [hx, hsilent]
      · rw [ho]; exact fun hr => hp.readEnds p hr (State.transferHandle?_silent hsilent)
    by_cases hrun : s.time.reset = .running
    · cases h.symm.trans (exec_portResetReleased_operation hline hrun)
      refine hp.change (p := p) rfl (fun q hq => State.setPort_port_ne _ _ hq) ⟨⟨?_, ?_, ?_, ?_⟩, speaks _ rfl rfl⟩
      · rw [State.setPort_port_self]; nofun
      · exact fun hr => absurd hrun hr
      · rw [State.setPort_port_self]; nofun
      · rw [State.setPort_port_self]; exact fun _ => hrotation
    · cases h.symm.trans (exec_portResetReleased_before hline hrun)
      refine hp.change (p := p) rfl (fun q hq => State.setPort_port_ne _ _ hq) ⟨⟨?_, ?_, ?_, ?_⟩, speaks _ rfl rfl⟩
      · rw [State.setPort_port_self]; nofun
      · rw [State.setPort_port_self]; exact fun _ => hst
      · exact fun hr => absurd hr hrun
      · rw [State.setPort_port_self]; exact fun _ => hrotation

theorem PortLaw.globalReset (s : State) : PortLaw s.globalReset := portLaw_iff.2 (fun p => by
  have hport : s.globalReset.port p = PortController.initial (s.port p).resetAsserted := PerPort.get_map _ _ p
  refine ⟨⟨?_, ?_, nofun, ?_⟩, .of_silent ?_ ?_⟩ <;> rw [hport]
  · exact fun _ => rfl
  · exact fun _ => rfl
  · exact fun _ => rfl
  · rfl
  · exact fun _ => rfl)

/-- The start-up interval begins with every port HELD and silent (R183, R184). -/
theorem PortLaw.globalResetReleased (hp : PortLaw s) (h : execGlobalResetReleased s = .next t) : PortLaw t := by
  simp only [execGlobalResetReleased, Host.Outcome.next.injEq] at h
  subst h
  split
  · rename_i hr
    have hheld := hp.heldBeforeOperation (by rw [hr]; nofun)
    exact ⟨hp.heldByReset, fun _ => hheld, nofun,
      fun p _ => hp.silentWhileIgnored p (State.shownState_of_held_released (hheld p) (by rw [hr]; nofun)),
      hp.rotationRests, hp.idleWhileDetached, hp.readEnds, hp.fillsArePosts⟩
  · exact hp

/-! #### Time -/

/-- Operation begins: a port whose line is released was HELD and becomes DETACHED, and any other stays HELD and silent
(R142, R165, R184). -/
theorem PortLaw.endStartUp (hp : PortLaw s) (hr : s.time.reset = .startUp) : PortLaw s.endStartUp :=
  portLaw_iff.2 (fun p => by
    have hst := hp.heldBeforeOperation (by rw [hr]; nofun) p
    have hna := State.not_attached_of_held hst
    obtain ⟨htransaction, houtcome⟩ := s.endStartUp_controllers p
    have hfill : s.endStartUp.fillHandle? p = s.fillHandle? p := by
      simp only [State.fillHandle?, htransaction, houtcome]
    have htransfer : s.endStartUp.transferHandle? p = s.transferHandle? p := by
      simp only [State.transferHandle?, htransaction, houtcome]
    have hport : s.endStartUp.port p =
        if (s.port p).resetAsserted = true then s.port p else { s.port p with state := .detached } :=
      PerPort.get_map _ _ p
    refine ⟨⟨?_, fun h => absurd rfl h, fun _ => ?_, fun _ => ?_⟩, ⟨fun hn => ?_, fun _ => ?_, ?_, ?_⟩⟩
    · rw [hport]; split
      · exact hp.heldByReset p
      · rename_i hline; exact fun h => absurd h hline
    · rw [hport]; split
      · rename_i hline; exact fun _ => hline
      · nofun
    · rw [hport]; split <;> exact hp.rotationRests p hna
    · rw [htransaction]
      refine hp.silentWhileIgnored p (State.shownState_of_asserted hst ?_)
      by_contra hline
      have := (State.shownState_eq_none.1 hn).1
      rw [hport, if_neg hline] at this
      cases this
    · rw [hfill, htransfer]; exact hp.idleWhileDetached p hna
    · rw [houtcome, htransfer]; exact hp.readEnds p
    · rw [houtcome, htransaction]; exact hp.fillsArePosts p)

theorem PortLaw.takeExpiry (hp : PortLaw s) (e : Expiry) : PortLaw (s.takeExpiry e) :=
  hp.congr (s.takeExpiry_ports e) (by rw [s.takeExpiry_time])

theorem PortLaw.countAdvance (hp : PortLaw s) : PortLaw s.countAdvance := by
  unfold State.countAdvance
  split
  · exact hp
  · rename_i hr; exact hp.endStartUp hr
  · exact hp.congr rfl rfl

theorem PortLaw.advance (hp : PortLaw s) : PortLaw s.advance :=
  s.advance_keeps (fun _ e h => h.takeExpiry e) (fun _ _ h => h.congr rfl rfl) (fun _ h => h.countAdvance) hp

theorem PortLaw.referencePeriod (hp : PortLaw s) : PortLaw s.referencePeriod :=
  s.referencePeriod_keeps (fun _ e h => h.takeExpiry e) (fun _ _ h => h.congr rfl rfl) (fun _ h => h.countAdvance)
    (fun _ _ h => h.congr rfl rfl) hp

/-! #### Rows -/

/-- Every row keeps the law of the port controllers. -/
theorem exec_portLaw {i : Instr} (hp : PortLaw s) (hi : exec i s = .next t) : PortLaw t := by
  have command : ∀ {p c args named} {owner : State → Answer},
      (∀ shown, s.shownState p = some shown → admission c shown = none → s.transferHandle? p = none →
        Proper s p c (owner s)) →
      Host.Outcome.next (s.transact p c args named owner) = (.next t : Host.Outcome State Fault Refusal) →
      PortLaw t := by
    intro p c args named owner ho he
    cases he
    exact hp.transact c args named owner ho
  have quiet : ∀ {p c args named} {owner : State → Answer}, Quiet s (owner s) → (owner s).state.time = s.time →
      Host.Outcome.next (s.transact p c args named owner) = (.next t : Host.Outcome State Fault Refusal) → PortLaw t :=
    fun hq htime => command (fun _ _ _ hX => hp.proper hX hq.ports htime (.inl hq.handle))
  have placing : ∀ {p c args named} {owner : State → Answer}, admission c .detached ≠ none →
      SameSurroundings s (owner s).state →
      Host.Outcome.next (s.transact p c args named owner) = (.next t : Host.Outcome State Fault Refusal) → PortLaw t :=
    fun hc ho => command (fun _ hs ha hX => hp.proper hX ho.ports ho.time (.inr (attached_of_admission hc hs ha)))
  cases i with
  | status p => exact quiet (.of_store rfl rfl (.refl s)) rfl hi
  | attach p => exact command (fun _ hs ha _ => State.attach_proper (not_held_of_admission hs ha)) hi
  | detach p => exact command (fun _ hs ha _ => State.detach_proper (not_held_of_admission hs ha)) hi
  | nextEvent p => exact quiet (nextEventAnswer_quiet p s) (nextEventAnswer_time p s) hi
  | offer p ms cl w sz hl => exact placing (by nofun) (offerAnswer_surroundings p ms cl w sz hl s) hi
  | answer p c g ch wl sl => exact placing (by nofun) (answerAnswer_surroundings p c g ch wl sl s) hi
  | close p c => exact placing (by nofun) (closeAnswer_surroundings p c s) hi
  | leave p c => exact placing (by nofun) (leaveAnswer_surroundings p c s) hi
  | flush p c => exact placing (by nofun) (flushAnswer_surroundings p c s) hi
  | conduitInfo p c => exact quiet (conduitInfoAnswer_quiet c s) (by rw [State.conduitInfo_state]) hi
  | post p c len => exact placing (by nofun) (postAnswer_surroundings p c len s) hi
  | take p c => exact placing (by nofun) (takeAnswer_surroundings p c s) hi
  | takeAny p =>
    exact command (fun _ hs ha hX => takeAnyAnswer_proper hp hX (attached_of_admission (by nofun) hs ha)) hi
  | peek p c => exact placing (by nofun) (peekAnswer_surroundings p c s) hi
  | readHeld p c q => exact placing (by nofun) (readHeldAnswer_surroundings p c q s) hi
  | release p c q => exact placing (by nofun) (releaseAnswer_surroundings p c q s) hi
  | attend p n v a => exact quiet (attendAnswer_quiet p n v a s) (attendAnswer_time p n v a s) hi
  | acceptAttn p => exact quiet (acceptAttnAnswer_quiet p s) (acceptAttnAnswer_time p s) hi
  | withdrawAttn p n => exact quiet (withdrawAttnAnswer_quiet p n s) (withdrawAttnAnswer_time p n s) hi
  | propose p q => exact quiet (proposeAnswer_quiet p q s) (proposeAnswer_time p q s) hi
  | vote p id ch => exact quiet (voteAnswer_quiet p id ch s) (voteAnswer_time p id ch s) hi
  | cancelProposal p id => exact quiet (cancelProposalAnswer_quiet p id s) (cancelProposalAnswer_time p id s) hi
  | readPartition p => exact quiet (.of_store rfl rfl (.refl s)) rfl hi
  | poolInfo p => exact quiet (.of_store rfl rfl (.refl s)) rfl hi
  | segmentInfo p x => exact quiet (.of_store rfl rfl (.refl s)) rfl hi
  | badCommand p code =>
    simp only [exec, execBadCommand] at hi
    split at hi
    · cases hi; exact hp.refuseCode p code
    · cases hi
  | truncated p code args =>
    simp only [exec, execTruncated] at hi
    split at hi
    · split at hi
      · cases hi; exact hp.refuseTruncated p code args
      · cases hi
    · cases hi
  | fillCompletion p bytes =>
    simp only [exec, execFillCompletion, Host.Outcome.next.injEq] at hi
    subst hi
    split
    · have received := hp.receivePayload p bytes
      exact (received.releaseSelect_ended p).portLaw received
    · exact hp
  | transferEnd p => cases hi; exact (hp.releaseSelect_ended p).portLaw hp
  | portResetAsserted p => exact hp.portResetAsserted hi
  | portResetReleased p => exact hp.portResetReleased hi
  | globalResetAsserted => cases hi; exact .globalReset s
  | globalResetReleased => exact hp.globalResetReleased hi
  | intervalAdvance => cases hi; exact hp.advance
  | endOfStartUp =>
    simp only [exec, execEndOfStartUp, Host.Outcome.next.injEq] at hi
    subst hi
    split
    · rename_i hr; exact hp.endStartUp hr
    · exact hp
  | offerLapse n => cases hi; exact hp.takeExpiry (.offer n)
  | proposalLapse => cases hi; exact hp.takeExpiry .proposal
  | holdLapse n p q => cases hi; exact hp.takeExpiry (.hold n p q)
  | selectAsserted p => exact hp.selectAsserted hi

end PortControllers

end Sys2Proof.Machine

open Sys2Proof Sys2Proof.Machine in
/-- Settles O7: a row changes the controller of its own port alone, but for the beginning of operation and the global
reset, which change all four alike. -/
theorem everyStepKeepsThePortLaw : Obligations.EveryStepKeepsThePortLaw := by
  intro s t hp hstep
  obtain ⟨-, rfl⟩ | ⟨i, rest, -, hi⟩ := step_cases hstep
  · exact hp.referencePeriod
  · exact exec_portLaw hp.of_pending hi

/-! ### One event queue -/

namespace Sys2Proof.Machine

section EventQueues

variable {q : EventQueue} {e : Event} {r : EventRecord}

theorem EventQueue.overflowPresent_eq_false_iff :
    q.overflowPresent = false ↔ ∀ r ∈ q.records, r.event.isOverflow = false := by
  simp [EventQueue.overflowPresent]

/-- A record addressed to a queue that holds OVERFLOW is counted into it and gets no number (R88). -/
theorem EventQueue.push_of_present (h : q.overflowPresent = true) (e : Event) :
    q.push e = { records := q.records.map EventRecord.countLoss, counter := q.counter } := by
  simp [EventQueue.push, h]

/-- A record addressed to a queue without OVERFLOW joins it with the counter's number, as itself or as the OVERFLOW
record it makes (R84, R87). -/
theorem EventQueue.push_of_absent (h : q.overflowPresent = false) (e : Event) :
    q.push e =
      { records := q.records ++
          [{ number := q.counter, event := if q.records.length < 31 then e else .overflow 1 }]
        counter := q.counter + 1 } := by
  rw [EventQueue.push, if_neg (by simp [h])]
  rfl

@[simp] theorem EventRecord.countLoss_number (r : EventRecord) : r.countLoss.number = r.number := by
  unfold EventRecord.countLoss; split <;> rfl

@[simp] theorem EventRecord.countLoss_isOverflow (r : EventRecord) :
    r.countLoss.event.isOverflow = r.event.isOverflow := by
  unfold EventRecord.countLoss
  split
  · rename_i hr; rw [hr]; rfl
  · rfl

theorem EventRecord.countLoss_of_ordinary (h : r.event.isOverflow = false) : r.countLoss = r := by
  unfold EventRecord.countLoss
  split
  · rename_i hr; rw [hr] at h; cases h
  · rfl

theorem EventRecord.countLoss_of_overflow (number : Byte) (lost : Nat) :
    EventRecord.countLoss ⟨number, .overflow lost⟩ = ⟨number, .overflow (min (lost + 1) 65535)⟩ := rfl

/-- A lost count stays from 1 to 65535 as it counts (R88). -/
theorem EventRecord.countLoss_lost {lost : Nat} (h : r.countLoss.event = .overflow lost) : 1 ≤ lost ∧ lost ≤ 65535 := by
  unfold EventRecord.countLoss at h
  split at h
  · cases h
    simp only [Config.maxLostCount]
    omega
  · rename_i hr; exact absurd h (hr lost)

/-- The number of a record does not depend on the records behind it, as each of them has raised the counter (R85). -/
theorem number_succ (counter : Byte) (k : Nat) : counter + 1 - BitVec.ofNat 8 (k + 1) = counter - BitVec.ofNat 8 k := by
  rw [BitVec.ofNat_add]
  exact add_sub_add_right_eq_sub counter _ 1

theorem QueueLaw.empty (counter : Byte) : QueueLaw { records := [], counter } :=
  ⟨by simp, by simp, by simp, by simp, fun i h => absurd h (by simp)⟩

/-- Counting losses keeps the law: no record joins, and none changes its kind. -/
theorem QueueLaw.countLosses (h : QueueLaw q) :
    QueueLaw { records := q.records.map EventRecord.countLoss, counter := q.counter } where
  atMost32 := by rw [List.length_map]; exact h.atMost32
  atMost31Ordinary := by
    rw [List.countP_map]
    simpa only [Function.comp_def, EventRecord.countLoss_isOverflow] using h.atMost31Ordinary
  overflowIsYoungest r hr := by
    rw [← List.map_dropLast] at hr
    obtain ⟨x, hx, rfl⟩ := List.mem_map.1 hr
    rw [EventRecord.countLoss_isOverflow]
    exact h.overflowIsYoungest x hx
  lostInRange r hr lost hl := by
    obtain ⟨x, -, rfl⟩ := List.mem_map.1 hr
    exact EventRecord.countLoss_lost hl
  numbered i hi := by
    simp only [List.length_map] at hi
    simpa using h.numbered i hi

/-- A record that joins a queue without OVERFLOW keeps the law where it is ordinary with room for it, or the OVERFLOW
record of a first loss: without OVERFLOW at most 31 records stand there. -/
theorem QueueLaw.append (h : QueueLaw q) (habsent : q.overflowPresent = false)
    (he : e.isOverflow = false ∧ q.records.length < 31 ∨ e = .overflow 1) :
    QueueLaw { records := q.records ++ [{ number := q.counter, event := e }], counter := q.counter + 1 } := by
  have hordinary := EventQueue.overflowPresent_eq_false_iff.1 habsent
  have hcount : q.records.countP (fun r => !r.event.isOverflow) = q.records.length :=
    List.countP_eq_length.2 (fun r hr => by rw [hordinary r hr]; rfl)
  have hlength : q.records.length ≤ 31 := hcount ▸ h.atMost31Ordinary
  refine ⟨?_, ?_, fun r hr => ?_, fun r hr lost hl => ?_, fun i hi => ?_⟩
  · simp only [List.length_append, List.length_singleton]
    omega
  · rw [List.countP_append, hcount, List.countP_singleton]
    obtain ⟨he, hroom⟩ | rfl := he
    · simp only [he]
      exact hroom
    · exact hlength
  · rw [List.dropLast_concat] at hr
    exact hordinary r hr
  · obtain hr | hr := List.mem_append.1 hr
    · exact h.lostInRange r hr lost hl
    · cases List.mem_singleton.1 hr
      obtain ⟨he, -⟩ | he := he
      · rw [show e = .overflow lost from hl] at he; cases he
      · cases he.symm.trans hl; decide
  · simp only [List.length_append, List.length_singleton] at hi ⊢
    obtain hi | rfl := Nat.lt_succ_iff_lt_or_eq.1 hi
    · rw [List.getElem_append_left hi, h.numbered i hi,
        show q.records.length + 1 - i = q.records.length - i + 1 by omega, number_succ]
    · rw [List.getElem_concat_length rfl, Nat.add_sub_cancel_left]
      exact (BitVec.add_sub_cancel _ _).symm

/-- An ordinary record addressed to a queue keeps its law (R84, R87, R88). -/
theorem QueueLaw.push (h : QueueLaw q) (he : e.isOverflow = false) : QueueLaw (q.push e) := by
  cases hq : q.overflowPresent with
  | true => rw [EventQueue.push_of_present hq]; exact h.countLosses
  | false =>
    rw [EventQueue.push_of_absent hq]
    split
    · rename_i hroom; exact h.append hq (.inl ⟨he, hroom⟩)
    · exact h.append hq (.inr rfl)

/-- The oldest record popped (R90). -/
theorem QueueLaw.pop {rest : List EventRecord} (h : QueueLaw q) (hq : q.records = r :: rest) :
    QueueLaw { records := rest, counter := q.counter } := by
  obtain ⟨h32, h31, hyoungest, hlost, hnumbered⟩ := h
  simp only [hq, List.length_cons] at h32 h31 hyoungest hlost hnumbered
  refine ⟨by simp only; omega, ?_, fun x hx => ?_, fun x hx => hlost x (List.mem_cons_of_mem _ hx), fun i hi => ?_⟩
  · exact (List.sublist_cons_self r rest).countP_le.trans h31
  · cases rest with
    | nil => cases hx
    | cons y ys => exact hyoungest x (List.mem_cons_of_mem _ hx)
  · have := hnumbered (i + 1) (by simpa using hi)
    rwa [List.getElem_cons_succ, Nat.add_sub_add_right] at this

theorem QueueLaw.pushAll {es : List Event} (h : QueueLaw q) (he : ∀ e ∈ es, e.isOverflow = false) :
    QueueLaw (es.foldl EventQueue.push q) := by
  induction es generalizing q with
  | nil => exact h
  | cons e es ih => exact ih (h.push (he e List.mem_cons_self)) (fun x hx => he x (List.mem_cons_of_mem _ hx))

end EventQueues

end Sys2Proof.Machine

section AppendAndNextEvent

open Sys2Proof Sys2Proof.Machine

/-- Settles O22: a queue takes a record in one of two ways, by whether it holds OVERFLOW. -/
theorem appendingARecord : Obligations.AppendingARecord := by
  intro s p e
  have absent : (s.events.get p).records.all (fun r => !r.event.isOverflow) = true →
      (s.events.get p).overflowPresent = false := fun h =>
    EventQueue.overflowPresent_eq_false_iff.2 (by simpa using h)
  refine ⟨fun hp => if_neg hp, fun hp hall hroom => ?_, fun hp hall hfull => ?_,
    fun before number lost hp hrecords hbefore hlost => ?_⟩
  · rw [State.appendEvent, if_pos hp, EventQueue.push_of_absent (absent hall), if_pos (by omega)]
  · rw [State.appendEvent, if_pos hp, EventQueue.push_of_absent (absent hall), if_neg (by omega)]
  · have hpresent : (s.events.get p).overflowPresent = true := by
      simp [EventQueue.overflowPresent, hrecords, Event.isOverflow]
    have hkept : before.map EventRecord.countLoss = before :=
      (List.map_congr_left (g := id) (fun r hr =>
        EventRecord.countLoss_of_ordinary (by simpa using List.all_eq_true.1 hbefore r hr))).trans (List.map_id _)
    have hcounted : min (lost + 1) 65535 = if lost < 65535 then lost + 1 else 65535 := by split <;> omega
    rw [State.appendEvent, if_pos hp, EventQueue.push_of_present hpresent, hrecords, List.map_append, hkept,
      List.map_singleton, EventRecord.countLoss_of_overflow, hcounted]

/-- Settles O37: NEXT_EVENT pops the head of its port's queue, or answers that there is none. -/
theorem nextEventPopsTheOldest : Obligations.NextEventPopsTheOldest := by
  intro s p ha
  have reply : ∀ a, nextEventAnswer p s = a → a.state.ports = s.ports → a.outcome = .done → a.conduit = none →
      a.handle = none → exec (.nextEvent p) s = .next (a.state.replied p .nextEvent .done none none a.fields) := by
    intro a ho hports hdone hconduit hhandle
    refine congrArg Host.Outcome.next ((State.transact_of_attached ha (by simp) ho
      (by rw [State.port_congr hports]) (fun _ => by simp)).trans ?_)
    rw [hdone, hconduit, hhandle]
    rfl
  refine ⟨fun r rest hq => reply _ (by rw [nextEventAnswer, hq]) rfl rfl rfl rfl,
    fun hq => reply _ (by rw [nextEventAnswer, hq]) rfl rfl rfl rfl⟩

end AppendAndNextEvent

/-! ### ATTACH -/

namespace Sys2Proof.Machine

/-- The port in the exchange, with an empty event queue, before any other port is told (R96, R136). -/
def State.joined (s : State) (p : Port) : State :=
  { s with
    ports := s.ports.set p { s.port p with state := .attached, rotation := 23 }
    events := s.events.set p { records := [], counter := 0 } }

/-- An attach is the joining, and then the records of an abandoned proposal and of the new peer (R129, R137). -/
theorem State.attach_eq (s : State) (p : Port) : s.attach p =
    ({ s.joined p with partition := { s.partition with proposal := none } } : State).tell
      (fun q => s.abandonedRecords p q ++ if q = p then [] else [.peerAttached p]) := by
  have hjoined : s.attach p =
      ((s.joined p).abandonProposal p).appendEvents (otherPorts p) (.peerAttached p) := rfl
  rw [hjoined, State.abandonProposal_eq, State.peersTold_eq, State.tell_tell]
  simp only [ne_eq, ite_not]
  rfl

end Sys2Proof.Machine

section Attach

open Sys2Proof Sys2Proof.Machine

/-- Settles O31: a DETACHED port has ATTACH admitted, and the reply is written behind the joining. -/
theorem attachJoinsTheExchange : Obligations.AttachJoinsTheExchange := by
  rintro s - p ha rfl
  have hport : (s.attach p).port p = { s.port p with state := .attached, rotation := 23 } := by
    rw [State.port, State.attach_ports, PerPort.get_set_self]
  refine congrArg Host.Outcome.next ((State.transact_eq_replied ha (a := { state := s.attach p, outcome := .done })
    rfl (by rw [hport]) (fun _ => by simp)).trans ?_)
  rw [State.attach_eq]
  rfl

end Attach

/-! ### What the operations report

Every operation changes the event queues by ordinary records that it addresses to the ports, but for four: NEXT_EVENT
pops a record, and a joining, a departure and the global reset empty a queue. So the law of the Event Unit is a law of
each port for itself, and a row's proof is mostly that it reports. -/

namespace Sys2Proof.Machine

-- One theorem at a time: a thread that waits for another keeps its stack.
set_option Elab.async false

section Reporting

variable {s t u : State} {p q : Port} {n : ConduitNo} {ch : Channel}

/-- The event queues change by ordinary records addressed to the ports alone, and no port joins or leaves. -/
structure Reports (s t : State) : Prop where
  attached : ∀ q, t.Attached q ↔ s.Attached q
  records : ∀ q, ∃ es : List Event, (∀ e ∈ es, e.isOverflow = false) ∧ t.events.get q = s.hears q es

theorem Reports.refl (s : State) : Reports s s := ⟨fun _ => .rfl, fun q => ⟨[], by simp, (s.hears_nil q).symm⟩⟩

theorem Reports.trans (a : Reports s t) (b : Reports t u) : Reports s u where
  attached q := (b.attached q).trans (a.attached q)
  records q := by
    obtain ⟨es, hes, he⟩ := a.records q
    obtain ⟨es', hes', he'⟩ := b.records q
    refine ⟨es ++ es', fun e hm => ?_, he'.trans (State.hears_append (a.attached q) he es')⟩
    exact (List.mem_append.1 hm).elim (hes e) (hes' e)

theorem Reports.foldl {α : Type} {f : State → α → State} (hf : ∀ t a, Reports t (f t a)) (h : Reports s t)
    (l : List α) : Reports s (l.foldl f t) := by
  induction l generalizing t with
  | nil => exact h
  | cons a l ih => exact ih (h.trans (hf t a))

/-! #### Records, and what is outside the event queues -/

theorem Reports.tell (h : Reports s t) {f : Port → List Event} (hf : ∀ q, ∀ e ∈ f q, e.isOverflow = false) :
    Reports s (t.tell f) := h.trans ⟨fun _ => .rfl, fun q => ⟨f q, hf q, t.heard_get f q⟩⟩

theorem Reports.appendEvent (h : Reports s t) (p : Port) (e : Event) (he : e.isOverflow = false := by rfl) :
    Reports s (t.appendEvent p e) := by
  rw [State.appendEvent_eq_tell]
  refine h.tell (fun q x hx => ?_)
  split at hx
  · rw [List.mem_singleton.1 hx, he]
  · cases hx

theorem Reports.appendEvents (h : Reports s t) (ps : List Port) (e : Event) (he : e.isOverflow = false := by rfl) :
    Reports s (t.appendEvents ps e) := h.foldl (fun t p => (Reports.refl t).appendEvent p e he) ps

/-- What is neither a port controller nor an event queue may change. -/
theorem Reports.blocks (h : Reports s t) {pool : Pool} {conduits : Vector Conduit 24} {attention : Attention}
    {partition : Partition} {time : TimeBase} {choices : Nat} {pending : List Instr} :
    Reports s
      { ports := t.ports, pool, conduits, events := t.events, attention, partition, time, choices, pending } :=
  h.trans ⟨fun _ => .rfl, (Reports.refl t).records⟩

/-- A port controller whose port stays ATTACHED, or stays apart. -/
theorem Reports.setPort (h : Reports s t) {c : PortController} (hc : c.state = .attached ↔ t.Attached p) :
    Reports s (t.setPort p c) :=
  h.trans ⟨fun q => by
    rw [State.Attached, State.setPort_port]
    split
    · rename_i e; rw [e]; exact hc
    · exact .rfl, (Reports.refl t).records⟩

/-! #### Descriptors and slots -/

theorem Reports.setSegment (h : Reports s t) (k : Handle) (g : Option Segment) : Reports s (t.setSegment k g) :=
  h.blocks

theorem Reports.setChannel (h : Reports s t) (n : ConduitNo) (x : Option Channel) : Reports s (t.setChannel n x) :=
  h.blocks

theorem Reports.updateChannel (h : Reports s t) (n : ConduitNo) (f : Channel → Channel) :
    Reports s (t.updateChannel n f) := by
  unfold State.updateChannel
  split
  · exact h
  · exact h.blocks

theorem Reports.updateEndpoint (h : Reports s t) (n : ConduitNo) (p : Port) (f : Endpoint → Endpoint) :
    Reports s (t.updateEndpoint n p f) := h.updateChannel n _

theorem Reports.freeingNotice (h : Reports s t) (n : ConduitNo) : Reports s (t.freeingNotice n) := by
  unfold State.freeingNotice
  split
  · exact h
  · split
    · exact h
    · split
      · exact (h.updateChannel n _).appendEvent _ _
      · exact h.updateChannel n _

theorem Reports.freeDescriptor (h : Reports s t) (k : Handle) : Reports s (t.freeDescriptor k) := by
  unfold State.freeDescriptor
  split
  · exact h
  · split
    · exact h.blocks
    · exact h.blocks.freeingNotice _

theorem Reports.claim (h : Reports s t) (c : Claim) (k : Handle) : Reports s (t.claim c k) := by
  unfold State.claim
  split
  · exact h
  · split
    · exact h
    · split
      · exact h.blocks.freeDescriptor k
      · exact h.blocks

theorem Reports.claims (h : Reports s t) (c : Claim) (ks : List Handle) : Reports s (t.claims c ks) :=
  h.foldl (fun t k => (Reports.refl t).claim c k) ks

theorem Reports.failOffer (h : Reports s t) (n : ConduitNo) (r : OfferResult) (ps : List Port) :
    Reports s (t.failOffer n r ps) := (h.appendEvents ps _).blocks

theorem Reports.endConduit (h : Reports s t) (n : ConduitNo) (r : EndReason) : Reports s (t.endConduit n r) := by
  unfold State.endConduit
  split
  · exact h
  · exact (h.appendEvents _ _).blocks

theorem Reports.drainCheck (h : Reports s t) (n : ConduitNo) : Reports s (t.drainCheck n) := by
  unfold State.drainCheck
  split
  · exact h
  · split
    · split
      · exact h.endConduit n _
      · exact h
    · exact h

theorem Reports.removeMember (h : Reports s t) (n : ConduitNo) (p : Port) (r : GoneReason) :
    Reports s (t.removeMember n p r) := by
  unfold State.removeMember
  split
  · exact h
  · rename_i ch _
    split
    · exact h
    · rename_i e _
      have dropped := (((h.setChannel n (some (ch.without p))).appendEvents
        (if ch.producerPresent then [ch.producer] else []) (.consumerGone n p r)).claims .removeQueued e.queue).claims
        .removeHeld (e.holds.map (fun d => d.handle))
      simp only
      split
      · exact dropped.endConduit n _
      · exact dropped.drainCheck n

theorem Reports.flushMember (h : Reports s t) (n : ConduitNo) (e : Endpoint) : Reports s (t.flushMember n e) := by
  have emptied := (h.updateEndpoint n e.port (fun e => { e with queue := [] })).claims .flush e.queue
  unfold State.flushMember
  simp only
  split
  · exact emptied
  · exact emptied.appendEvent _ _

theorem Reports.takeHead (h : Reports s t) (p : Port) (n : ConduitNo) (ch : Channel) (k : Handle) :
    Reports s (t.takeHead p n ch k) := ((h.updateEndpoint n p _).claim .take k).drainCheck n

theorem Reports.recordAccept (h : Reports s t) (n : ConduitNo) (ch : Channel) (p : Port) (window size : Nat) :
    Reports s (t.recordAccept n ch p window size) := by
  unfold State.recordAccept
  simp only
  split
  · exact h.setChannel n _
  · exact (h.setChannel n _).appendEvents _ _

theorem Reports.makeOffer (h : Reports s t) (n : ConduitNo) (p : Port) (members : List Port) (cls : ConduitClass)
    (window size limit : Nat) : Reports s (t.makeOffer n p members cls window size limit) :=
  h.blocks.appendEvents members _

/-- An OPEN or DRAINING conduit that drains, its members told (R39, R45). -/
theorem Reports.drains (h : Reports s t) (n : ConduitNo) (x : Option Channel) (ps : List Port) (e : Event)
    (he : e.isOverflow = false := by rfl) :
    Reports s (((t.setChannel n x).appendEvents ps e).drainCheck n) :=
  ((h.setChannel n x).appendEvents ps e he).drainCheck n

theorem Reports.departConduit (h : Reports s t) (p : Port) (n : ConduitNo) : Reports s (t.departConduit p n) := by
  unfold State.departConduit
  split
  · exact h
  · split
    · split
      · exact h.failOffer n _ _
      · exact h.drains n _ _ _
      · exact h.drains n _ _ _
    · split
      · exact h
      · split
        · exact h.failOffer n _ _
        · exact h.removeMember n p _
        · exact h.removeMember n p _

theorem Reports.departConduits (h : Reports s t) (p : Port) : Reports s (t.departConduits p) :=
  h.foldl (fun t n => (Reports.refl t).departConduit p n) allConduits

/-! #### Proposals, requests and expiries -/

theorem Reports.resolveProposal (h : Reports s t) (pr : Proposal) (r : ProposalResult) :
    Reports s (t.resolveProposal pr r) := h.blocks.appendEvents _ _

theorem Reports.adoptProposal (h : Reports s t) (pr : Proposal) : Reports s (t.adoptProposal pr) := by
  unfold State.adoptProposal
  split
  · exact h.resolveProposal pr _
  · exact h.blocks.resolveProposal pr _

theorem Reports.abandonProposal (h : Reports s t) (p : Port) : Reports s (t.abandonProposal p) := by
  unfold State.abandonProposal
  split
  · exact h
  · exact h.resolveProposal _ _

theorem Reports.makeProposal (h : Reports s t) (p : Port) (q : PerPort Quota) : Reports s (t.makeProposal p q) := by
  unfold State.makeProposal
  simp only
  split
  · exact h.blocks.appendEvents _ _
  · exact (h.blocks.appendEvents _ _).adoptProposal _

theorem Reports.departAttention (h : Reports s t) (p : Port) : Reports s (t.departAttention p) := by
  rw [State.departAttention_eq]
  refine h.blocks.tell (fun q x hx => ?_)
  obtain ⟨e, -, rfl⟩ := List.mem_map.1 hx
  rfl

theorem Reports.lapseOffer (h : Reports s t) (n : ConduitNo) : Reports s (t.lapseOffer n) := by
  unfold State.lapseOffer
  split
  · exact h
  · split
    · split
      · exact h.failOffer n _ _
      · exact h
    · exact h
    · exact h

theorem Reports.lapseProposal (h : Reports s t) : Reports s t.lapseProposal := by
  unfold State.lapseProposal
  split
  · exact h
  · split
    · exact h.resolveProposal _ _
    · exact h

theorem Reports.lapseHold (h : Reports s t) (n : ConduitNo) (p : Port) (q : Half) : Reports s (t.lapseHold n p q) := by
  unfold State.lapseHold
  split
  · exact h
  · exact ((((h.updateEndpoint n p _).claim .holdLapse _).updateEndpoint n p _).appendEvent p _).drainCheck n

theorem State.takeExpiry_reports (s : State) (x : Expiry) : Reports s (s.takeExpiry x) := by
  cases x with
  | offer n => exact (Reports.refl s).lapseOffer n
  | proposal => exact (Reports.refl s).lapseProposal
  | hold n p q => exact (Reports.refl s).lapseHold n p q

/-! #### Transactions -/

theorem Reports.endTransaction (h : Reports s t) (p : Port) : Reports s (t.endTransaction p) := h.setPort .rfl

theorem Reports.endTransfer (h : Reports s t) (p : Port) : Reports s (t.endTransfer p) := by
  unfold State.endTransfer
  split
  · exact h
  · exact (h.claim .transferEnd _).setPort .rfl

theorem Reports.setOutcome (h : Reports s t) (p : Port) (o : OutcomeCode) : Reports s (t.setOutcome p o) :=
  h.setPort .rfl

theorem Reports.deliver (h : Reports s t) (k : Handle) (g : Segment) (n : ConduitNo) (ch : Channel) (f : Flow) :
    Reports s (t.deliver k g n ch f) := ((h.setChannel n _).setSegment k _).appendEvents _ _

theorem Reports.completeFill (h : Reports s t) (p : Port) (k : Handle) (count : Nat) :
    Reports s (t.completeFill p k count) := by
  unfold State.completeFill
  split
  · exact h
  · split
    · exact (h.freeDescriptor k).setOutcome p _
    · split
      · exact (h.freeDescriptor k).setOutcome p _
      · exact (h.deliver k _ _ _ _).setOutcome p _

theorem Reports.releaseSelect (h : Reports s t) (p : Port) : Reports s (t.releaseSelect p) := by
  unfold State.releaseSelect
  split
  · exact h
  · split
    · exact h.endTransaction p
    · exact h.setPort .rfl
    · exact (h.endTransfer p).endTransaction p
    · split
      · exact h.endTransaction p
      · exact (h.completeFill p _ _).endTransaction p

theorem Reports.abort (h : Reports s t) (p : Port) : Reports s (t.abort p) := by
  unfold State.abort
  split
  · exact (h.freeDescriptor _).endTransaction p
  · exact (h.endTransfer p).endTransaction p

theorem Reports.receivePayload (h : Reports s t) (p : Port) (bytes : List Byte) :
    Reports s (t.receivePayload p bytes) := by
  cases hF : t.fillHandle? p with
  | none => rw [State.receivePayload_of_no_fill bytes hF]; exact h
  | some k =>
    obtain ⟨x, hx, -⟩ := State.transaction_of_fill hF
    rw [State.receivePayload_of_fill bytes hF hx]
    refine Reports.setSegment (h.setPort ?_) k _
    exact .rfl

theorem Reports.refuseCode (h : Reports s t) (p : Port) (code : Byte) : Reports s (t.refuseCode p code) := by
  unfold State.refuseCode
  split
  · split
    · exact h
    · exact h
    · exact h.receivePayload p _
    · exact h.setPort .rfl
  · exact h

theorem Reports.refuseTruncated (h : Reports s t) (p : Port) (code : Byte) (args : List Byte) :
    Reports s (t.refuseTruncated p code args) := by
  unfold State.refuseTruncated
  split
  · split
    · exact h.setPort .rfl
    · exact h
  · exact h

/-- The outcome record and the reply are written behind the answer, and report nothing. -/
theorem State.accept_reports (p : Port) (c : Command) (named : Option ConduitNo) (x : Transaction) (a : Answer) :
    Reports a.state (State.accept p c named x a) := by
  have written : Reports a.state (a.state.writeOutcome p c a named) := by
    unfold State.writeOutcome
    split
    · exact .refl _
    · exact (Reports.refl _).setPort .rfl
  exact written.setPort .rfl

end Reporting

/-! ### What the owning blocks' answers report -/

section ReportingAnswers

variable (p : Port) (s : State)

theorem offerAnswer_reports (ms cl w : Byte) (sz hl : Half) : Reports s (offerAnswer p ms cl w sz hl s).state := by
  have same := Reports.refl s
  unfold offerAnswer
  split
  · exact same
  · split
    · exact same
    · split
      · exact same
      · split
        · exact same
        · split
          · exact same
          · split
            · exact same
            · exact same.makeOffer _ p _ _ _ _ _

theorem answerAnswer_reports (b g c wl : Byte) (sl : Half) : Reports s (answerAnswer p b g c wl sl s).state :=
  have same := Reports.refl s
  s.onConduit_keeps same (fun n ch _ => by
    split
    · exact same
    · split
      · exact same
      · exact same
      · split
        · exact same
        · split
          · exact same
          · split
            · exact same
            · exact same.failOffer n _ _
            · split
              · exact same.recordAccept n ch p _ _
              · exact same)

theorem closeAnswer_reports (b : Byte) : Reports s (closeAnswer p b s).state :=
  have same := Reports.refl s
  s.asProducer_keeps p same (fun n ch _ _ => by
    split
    · exact same.failOffer n _ _
    · exact same.drains n _ _ _
    · exact same)

theorem leaveAnswer_reports (b : Byte) : Reports s (leaveAnswer p b s).state :=
  s.asMember_keeps p (.refl s) (fun n _ _ _ _ _ => (Reports.refl s).removeMember n p _)

theorem flushAnswer_reports (b : Byte) : Reports s (flushAnswer p b s).state :=
  s.asProducer_keeps p (.refl s) (fun n ch _ _ => by
    have flushed := ((Reports.refl s).foldl (fun t e => (Reports.refl t).flushMember n e) ch.members).drainCheck n
    split
    · exact .refl s
    · exact flushed
    · exact flushed)

theorem postAnswer_reports (b : Byte) (length : Half) : Reports s (postAnswer p b length s).state :=
  have same := Reports.refl s
  s.asProducer_keeps p same (fun n ch _ _ => by
    split
    · exact same
    · exact same
    · split
      · exact same
      · split
        · exact same
        · split
          · exact same.updateChannel n _
          · split
            · exact same
            · split
              · exact same
              · split
                · exact same
                · exact same.blocks.updateChannel n _)

theorem takeAnswer_reports (b : Byte) : Reports s (takeAnswer p b s).state :=
  have same := Reports.refl s
  s.asMember_keeps p same (fun n ch e _ _ _ => by
    split
    · exact same
    · split
      · exact same
      · exact same.takeHead p n ch _)

theorem takeAnyAnswer_reports : Reports s (takeAnyAnswer p s).state := by
  have same := Reports.refl s
  unfold takeAnyAnswer
  split
  · split <;> exact same
  · split
    · exact same
    · exact (same.takeHead p _ _ _).setPort .rfl

theorem peekAnswer_reports (b : Byte) : Reports s (peekAnswer p b s).state :=
  s.asMember_keeps p (.refl s) (fun n ch e _ _ _ => by
    split
    · exact .refl s
    · exact (Reports.refl s).claim _ _)

theorem readHeldAnswer_reports (b : Byte) (q : Half) : Reports s (readHeldAnswer p b q s).state :=
  s.asMember_keeps p (.refl s) (fun n ch e _ _ _ => by
    split
    · exact .refl s
    · exact (Reports.refl s).claim _ _)

theorem releaseAnswer_reports (b : Byte) (q : Half) : Reports s (releaseAnswer p b q s).state :=
  have same := Reports.refl s
  s.asMember_keeps p same (fun n ch e _ _ _ => by
    split
    · exact ((same.updateEndpoint n p _).claim .release _).drainCheck n
    · split
      · exact same.updateEndpoint n p _
      · exact same)

theorem attendAnswer_reports (target vector : Byte) (argument : Half) :
    Reports s (attendAnswer p target vector argument s).state := by
  have same := Reports.refl s
  unfold attendAnswer
  split
  · exact same
  · split
    · exact same
    · split
      · exact same
      · split
        · exact same
        · exact same.blocks

theorem acceptAttnAnswer_reports : Reports s (acceptAttnAnswer p s).state := by
  unfold acceptAttnAnswer
  split
  · exact .refl s
  · exact (Reports.refl s).blocks.appendEvent _ _

theorem withdrawAttnAnswer_reports (target : Byte) : Reports s (withdrawAttnAnswer p target s).state := by
  have same := Reports.refl s
  unfold withdrawAttnAnswer
  split
  · exact same
  · split
    · exact same
    · split
      · exact same
      · exact same.blocks
      · exact same.blocks

theorem proposeAnswer_reports (q : PerPort QuotaArgument) : Reports s (proposeAnswer p q s).state := by
  have same := Reports.refl s
  unfold proposeAnswer
  simp only
  split
  · exact same
  · split
    · exact same
    · split
      · exact same
      · split
        · exact same
        · exact same.makeProposal p _

theorem voteAnswer_reports (id choice : Byte) : Reports s (voteAnswer p id choice s).state := by
  have same := Reports.refl s
  unfold voteAnswer
  split
  · exact same
  · split
    · exact same
    · split
      · exact same
      · split
        · exact same
        · exact same.resolveProposal _ _
        · simp only
          split
          · exact same.blocks
          · exact same.blocks.adoptProposal _

theorem cancelProposalAnswer_reports (id : Byte) : Reports s (cancelProposalAnswer p id s).state := by
  have same := Reports.refl s
  unfold cancelProposalAnswer
  split
  · exact same
  · split
    · exact same
    · split
      · exact same
      · exact same.resolveProposal _ _

end ReportingAnswers

/-! ### The law of the Event Unit -/

section EventUnit

variable {s t u : State} {p q : Port}

/-! #### One port -/

/-- The law of the Event Unit at one port. -/
structure EventLawAt (s : State) (q : Port) : Prop where
  queue : QueueLaw (s.events.get q)
  unattached : ¬ s.Attached q → (s.events.get q).records = []

theorem eventLaw_iff : EventLaw s ↔ ∀ q, EventLawAt s q where
  mp h q := ⟨h.queues q, h.unattached q⟩
  mpr h := ⟨fun q => (h q).queue, fun q => (h q).unattached⟩

theorem EventLaw.atPort (h : EventLaw s) (q : Port) : EventLawAt s q := eventLaw_iff.1 h q

theorem EventLawAt.congr (h : EventLawAt s q) (hat : t.Attached q ↔ s.Attached q)
    (hev : t.events.get q = s.events.get q) : EventLawAt t q where
  queue := hev ▸ h.queue
  unattached hna := by rw [hev]; exact h.unattached (fun ha => hna (hat.2 ha))

/-- A port whose queue is empty, ATTACHED or not. -/
theorem EventLawAt.of_empty {counter : Byte} (hq : s.events.get q = { records := [], counter }) : EventLawAt s q where
  queue := hq ▸ .empty counter
  unattached _ := by rw [hq]

/-- Ordinary records keep the law of an ATTACHED port, and no other port records any (R84, R96). -/
theorem EventLawAt.reports (h : EventLawAt s q) (hr : Reports s t) : EventLawAt t q := by
  obtain ⟨es, hes, he⟩ := hr.records q
  by_cases ha : s.Attached q
  · refine ⟨?_, fun hna => absurd ((hr.attached q).2 ha) hna⟩
    rw [he, State.hears, if_pos ha]
    exact h.queue.pushAll hes
  · exact h.congr (hr.attached q) (he.trans (State.hears_apart ha))

theorem EventLaw.reports (h : EventLaw s) (hr : Reports s t) : EventLaw t :=
  eventLaw_iff.2 (fun q => (h.atPort q).reports hr)

/-! #### Joining, departing and reading -/

/-- A port joins with an empty event queue (R96, R136). -/
theorem EventLaw.attach (h : EventLaw s) (p : Port) : EventLaw (s.attach p) := by
  have joined : EventLaw (s.joined p) := eventLaw_iff.2 (fun q => by
    by_cases hq : q = p
    · subst hq; exact .of_empty (PerPort.get_set_self _ _ _)
    · exact (h.atPort q).congr
        (by rw [State.Attached, State.port, State.joined, PerPort.get_set_ne _ _ hq]; rfl)
        (PerPort.get_set_ne _ _ hq))
  exact joined.reports (((Reports.refl _).abandonProposal p).appendEvents (otherPorts p) (.peerAttached p))

/-- The queue of a port that departs is cleared behind the records of its departure, which it does not hear, and ahead
of PEER_DETACHED (R96, R143). -/
theorem EventLaw.depart (h : EventLaw s) (p : Port) (cause : DepartureCause) (left : PortState) :
    EventLaw (s.depart p cause left) := by
  have shares := (((Reports.refl (s.setPort p ((s.port p).departed left))).departConduits p).departAttention
    p).abandonProposal p
  have cleared := (Reports.refl (State.clearEvents ((((s.setPort p ((s.port p).departed left)).departConduits
    p).departAttention p).abandonProposal p) p)).appendEvents (otherPorts p) (.peerDetached p cause)
  refine EventLaw.reports (eventLaw_iff.2 (fun q => ?_)) cleared
  by_cases hq : q = p
  · exact .of_empty ((State.clearEvents_get _ p q).trans (if_pos hq))
  · have gone : EventLawAt (s.setPort p ((s.port p).departed left)) q :=
      (h.atPort q).congr (by rw [State.Attached, State.setPort_port_ne _ _ hq]) rfl
    exact (gone.reports shares).congr .rfl ((State.clearEvents_get _ p q).trans (if_neg hq))

/-- A record is popped on an ATTACHED port alone, as any other has none (R90, R96). -/
theorem EventLaw.nextEvent (h : EventLaw s) (p : Port) : EventLaw (nextEventAnswer p s).state := by
  unfold nextEventAnswer
  split
  · exact h
  · rename_i r rest hrecords
    refine eventLaw_iff.2 (fun q => ?_)
    by_cases hq : q = p
    · subst hq
      refine ⟨?_, fun hna => ?_⟩
      · rw [PerPort.get_set_self]; exact (h.queues q).pop hrecords
      · rw [h.unattached q hna] at hrecords; cases hrecords
    · exact (h.atPort q).congr .rfl (PerPort.get_set_ne _ _ hq)

/-! #### Rows -/

/-- A command frame keeps the law where its owning block's answer does. -/
theorem EventLaw.transact (h : EventLaw s) (c : Command) (args : List Byte) (named : Option ConduitNo)
    (owner : State → Answer) (ho : EventLaw (owner s).state) : EventLaw (s.transact p c args named owner) := by
  obtain he | ⟨bytes, he⟩ | ⟨x, shown, -, -, -, -, he⟩ := s.transact_cases p c args named owner
  · rw [he]; exact h
  · rw [he]; exact h.reports ((Reports.refl s).receivePayload p bytes)
  · rw [he]
    refine EventLaw.reports ?_ (State.accept_reports p c named x _)
    cases admission c shown with
    | some r => exact h
    | none => exact ho

theorem EventLaw.portResetAsserted (h : EventLaw s) (hi : execPortResetAsserted p s = .next t) : EventLaw t := by
  have aborted := h.reports ((Reports.refl s).abort p)
  simp only [execPortResetAsserted, Host.Outcome.next.injEq] at hi
  subst hi
  split
  · exact (aborted.depart p .reset .held).reports ((Reports.refl _).setPort .rfl)
  · rename_i hst
    have hna : ¬ (s.abort p).Attached p := fun ha => by
      rw [((Reports.refl s).abort p).attached, State.Attached, hst] at ha
      cases ha
    have held : Reports (s.abort p) ((s.abort p).enterHeld p) := (Reports.refl _).setPort (iff_of_false nofun hna)
    exact aborted.reports (held.setPort .rfl)
  · split
    · have ended : Reports s (s.endTransaction p) := (Reports.refl s).endTransaction p
      have reset : Reports s ((s.endTransaction p).resetOutcome p) := ended.setPort .rfl
      exact h.reports (reset.setPort .rfl)
    · exact h.reports ((Reports.refl s).setPort .rfl)

/-- A port whose line was asserted was HELD, and does not become ATTACHED (R142). -/
theorem EventLaw.portResetReleased (hp : PortLaw s) (h : EventLaw s) (hi : execPortResetReleased p s = .next t) :
    EventLaw t := by
  cases hline : (s.port p).resetAsserted with
  | false => cases hi.symm.trans (exec_portResetReleased_unasserted hline); exact h
  | true =>
    by_cases hrun : s.time.reset = .running
    · cases hi.symm.trans (exec_portResetReleased_operation hline hrun)
      have hna := State.not_attached_of_held (hp.heldByReset p hline)
      exact h.reports ((Reports.refl s).setPort (iff_of_false nofun hna))
    · cases hi.symm.trans (exec_portResetReleased_before hline hrun)
      exact h.reports ((Reports.refl s).setPort .rfl)

theorem EventLaw.selectAsserted (h : EventLaw s) (hi : execSelectAsserted p s = .next t) : EventLaw t := by
  simp only [execSelectAsserted, Host.Outcome.next.injEq] at hi
  subst hi
  split
  · exact h
  · exact h.reports (((Reports.refl s).releaseSelect p).setPort .rfl)

theorem EventLaw.globalReset (s : State) : EventLaw s.globalReset :=
  eventLaw_iff.2 (fun q => .of_empty (reset_events q))

/-- Operation begins with no port ATTACHED, before it or behind it (R184). -/
theorem EventLaw.endStartUp (hp : PortLaw s) (h : EventLaw s) (hr : s.time.reset = .startUp) :
    EventLaw s.endStartUp :=
  eventLaw_iff.2 (fun q => (h.atPort q).congr (iff_of_false (fun ha => by
    rw [State.Attached, show s.endStartUp.port q = _ from PerPort.get_map _ _ q] at ha
    split at ha
    · exact State.not_attached_of_held (hp.heldBeforeOperation (by rw [hr]; nofun) q) ha
    · cases ha) (State.not_attached_of_held (hp.heldBeforeOperation (by rw [hr]; nofun) q))) rfl)

theorem EventLaw.countAdvance (hp : PortLaw s) (h : EventLaw s) : EventLaw s.countAdvance := by
  unfold State.countAdvance
  split
  · exact h
  · rename_i hr; exact h.endStartUp hp hr
  · exact h.reports (Reports.refl s).blocks

/-- The law of the Event Unit beside the law of the port controllers, which tells who is HELD as operation begins. -/
structure EventsInTime (s : State) : Prop where
  ports : PortLaw s
  events : EventLaw s

theorem EventsInTime.takeExpiry (h : EventsInTime s) (x : Expiry) : EventsInTime (s.takeExpiry x) :=
  ⟨h.ports.takeExpiry x, h.events.reports (s.takeExpiry_reports x)⟩

theorem EventsInTime.countAdvance (h : EventsInTime s) : EventsInTime s.countAdvance :=
  ⟨h.ports.countAdvance, h.events.countAdvance h.ports⟩

/-- Neither law reads the count of free choices, nor the divider. -/
theorem EventsInTime.blocks (h : EventsInTime s) (choices divider : Nat) :
    EventsInTime { s with choices, time := { s.time with divider } } :=
  ⟨h.ports.congr rfl rfl, h.events.reports (Reports.refl s).blocks⟩

theorem EventsInTime.advance (h : EventsInTime s) : EventsInTime s.advance :=
  s.advance_keeps (fun _ x h => h.takeExpiry x) (fun s k h => h.blocks k s.time.divider) (fun _ h => h.countAdvance) h

theorem EventsInTime.referencePeriod (h : EventsInTime s) : EventsInTime s.referencePeriod :=
  s.referencePeriod_keeps (fun _ x h => h.takeExpiry x) (fun s k h => h.blocks k s.time.divider)
    (fun _ h => h.countAdvance) (fun s k h => h.blocks s.choices k) h

/-- Every row keeps the law of the Event Unit. -/
theorem exec_eventLaw {i : Instr} (hp : PortLaw s) (h : EventLaw s) (hi : exec i s = .next t) : EventLaw t := by
  have same := Reports.refl s
  have reported {u : State} (hu : Reports s u)
      (hi : Host.Outcome.next u = (.next t : Host.Outcome State Fault Refusal)) : EventLaw t := by
    cases hi
    exact h.reports hu
  have kept {p : Port} {c : Command} {args : List Byte} {named : Option ConduitNo} {owner : State → Answer}
      (ho : EventLaw (owner s).state)
      (hi : Host.Outcome.next (s.transact p c args named owner) = (.next t : Host.Outcome State Fault Refusal)) :
      EventLaw t := by
    cases hi
    exact h.transact c args named owner ho
  have command {p : Port} {c : Command} {args : List Byte} {named : Option ConduitNo} {owner : State → Answer}
      (ho : Reports s (owner s).state) :
      Host.Outcome.next (s.transact p c args named owner) = (.next t : Host.Outcome State Fault Refusal) →
      EventLaw t := kept (h.reports ho)
  cases i with
  | status p => exact command same hi
  | attach p => exact kept (h.attach p) hi
  | detach p => exact kept (h.depart p .detach .detached) hi
  | nextEvent p => exact kept (h.nextEvent p) hi
  | offer p ms cl w sz hl => exact command (offerAnswer_reports p s ms cl w sz hl) hi
  | answer p c g ch wl sl => exact command (answerAnswer_reports p s c g ch wl sl) hi
  | close p c => exact command (closeAnswer_reports p s c) hi
  | leave p c => exact command (leaveAnswer_reports p s c) hi
  | flush p c => exact command (flushAnswer_reports p s c) hi
  | conduitInfo p c => exact command (by rw [State.conduitInfo_state]; exact same) hi
  | post p c len => exact command (postAnswer_reports p s c len) hi
  | take p c => exact command (takeAnswer_reports p s c) hi
  | takeAny p => exact command (takeAnyAnswer_reports p s) hi
  | peek p c => exact command (peekAnswer_reports p s c) hi
  | readHeld p c q => exact command (readHeldAnswer_reports p s c q) hi
  | release p c q => exact command (releaseAnswer_reports p s c q) hi
  | attend p n v a => exact command (attendAnswer_reports p s n v a) hi
  | acceptAttn p => exact command (acceptAttnAnswer_reports p s) hi
  | withdrawAttn p n => exact command (withdrawAttnAnswer_reports p s n) hi
  | propose p q => exact command (proposeAnswer_reports p s q) hi
  | vote p id ch => exact command (voteAnswer_reports p s id ch) hi
  | cancelProposal p id => exact command (cancelProposalAnswer_reports p s id) hi
  | readPartition p => exact command same hi
  | poolInfo p => exact command same hi
  | segmentInfo p x => exact command same hi
  | badCommand p code =>
    simp only [exec, execBadCommand] at hi
    split at hi
    · exact reported (same.refuseCode p code) hi
    · cases hi
  | truncated p code args =>
    simp only [exec, execTruncated] at hi
    split at hi
    · split at hi
      · exact reported (same.refuseTruncated p code args) hi
      · cases hi
    · cases hi
  | fillCompletion p bytes =>
    refine reported ?_ hi
    split
    · exact (same.receivePayload p bytes).releaseSelect p
    · exact same
  | transferEnd p => exact reported (same.releaseSelect p) hi
  | portResetAsserted p => exact h.portResetAsserted hi
  | portResetReleased p => exact h.portResetReleased hp hi
  | globalResetAsserted => cases hi; exact .globalReset s
  | globalResetReleased =>
    refine reported ?_ hi
    split
    · exact same.blocks
    · exact same
  | intervalAdvance => cases hi; exact (EventsInTime.advance ⟨hp, h⟩).events
  | endOfStartUp =>
    simp only [exec, execEndOfStartUp, Host.Outcome.next.injEq] at hi
    subst hi
    split
    · rename_i hr; exact h.endStartUp hp hr
    · exact h
  | offerLapse n => exact reported (same.lapseOffer n) hi
  | proposalLapse => exact reported same.lapseProposal hi
  | holdLapse n p q => exact reported (same.lapseHold n p q) hi
  | selectAsserted p => exact h.selectAsserted hi

end EventUnit

end Sys2Proof.Machine

open Sys2Proof Sys2Proof.Machine in
/-- Settles O8: a row addresses ordinary records to the ports, pops one, or empties the queue of a port that joins or
departs. -/
theorem everyStepKeepsTheEventLaw : Obligations.EveryStepKeepsTheEventLaw := by
  intro s t hp h hstep
  obtain ⟨-, rfl⟩ | ⟨i, rest, -, hi⟩ := step_cases hstep
  · exact (EventsInTime.referencePeriod ⟨hp, h⟩).events
  · exact exec_eventLaw hp.of_pending (h.reports (Reports.refl s).blocks) hi

/-! ### The records the part shifts out -/

namespace Sys2Proof.Machine

section Layouts

variable (s : State) (n : ConduitNo) {ch : Channel}

/-! #### Values -/

@[simp] theorem halfBytes_length (k : Nat) : (halfBytes k).length = 2 := rfl

@[simp] theorem bigEndian_length (q : Half) : (bigEndian q).length = 2 := rfl

/-- Byte 0 of the status header, bit by bit (R168). -/
theorem headerByte_bits (shown : ShownState) (count : Fin 4) (flag : Bool) :
    (byteOf (shown.bits * 64 + count.val * 16 + (if flag then 8 else 0))).extractLsb' 6 2 =
        (match shown with | .starting => 0b01#2 | .detached => 0b10#2 | .attached => 0b11#2) ∧
      ((byteOf (shown.bits * 64 + count.val * 16 + (if flag then 8 else 0))).extractLsb' 4 2).toNat = count.val ∧
      (byteOf (shown.bits * 64 + count.val * 16 + (if flag then 8 else 0))).getLsbD 3 = flag ∧
      (byteOf (shown.bits * 64 + count.val * 16 + (if flag then 8 else 0))).extractLsb' 0 3 = 0 := by
  revert count flag
  cases shown <;> decide

/-! #### The event record -/

theorem OfferResult.fields_length (r : OfferResult) : r.fields.length = 3 := by cases r <;> rfl

theorem ProposalResult.fields_length (r : ProposalResult) : r.fields.length = 2 := by cases r <;> rfl

/-- No kind uses more than the six field bytes (R172, R173). -/
theorem Event.usedFields_length_le (e : Event) : e.usedFields.length ≤ 6 := by
  cases e <;> simp [Event.usedFields, OfferResult.fields_length, ProposalResult.fields_length]

theorem padded_length {k : Nat} {bs : List Byte} (h : bs.length ≤ k) : (padded k bs).length = k := by
  simp only [padded, List.length_append, List.length_replicate]
  omega

theorem EventRecord.bytes_length (r : EventRecord) : r.bytes.length = 8 := by
  rw [EventRecord.bytes, List.length_append, padded_length r.event.usedFields_length_le]
  rfl

/-! #### The conduit record -/

theorem Answered.bytes_length (a : Answered) : a.bytes.length = 4 := by cases a <;> rfl

theorem Endpoint.entry_length (e : Endpoint) : e.entry.length = 8 := by
  simp [Endpoint.entry, Answered.bytes_length]

/-- The member entry at a position, absent beyond the member count (R175). -/
def memberEntry (ms : List Endpoint) (i : Nat) : List Byte :=
  match ms[i]? with
  | none => absentEntry
  | some e => e.entry

theorem memberEntry_length (ms : List Endpoint) (i : Nat) : (memberEntry ms i).length = 8 := by
  unfold memberEntry
  split
  · rfl
  · exact Endpoint.entry_length _

/-- The three member entries are those of the members, in their order, and absent ones behind them (R175). -/
theorem memberEntries_eq (ms : List Endpoint) :
    memberEntries ms = memberEntry ms 0 ++ memberEntry ms 1 ++ memberEntry ms 2 := by
  match ms with
  | [] => rfl
  | [_] => simp [memberEntries, memberEntry, List.replicate]
  | [_, _] => simp [memberEntries, memberEntry, List.replicate]
  | _ :: _ :: _ :: _ => simp [memberEntries, memberEntry]

theorem memberEntries_length (ms : List Endpoint) : (memberEntries ms).length = 24 := by
  simp [memberEntries_eq, memberEntry_length]

theorem memberEntries_entry (ms : List Endpoint) {i : Nat} (hi : i < 3) :
    ((memberEntries ms).drop (8 * i)).take 8 = memberEntry ms i := by
  have hlen := memberEntry_length ms
  rw [memberEntries_eq]
  obtain rfl | rfl | rfl : i = 0 ∨ i = 1 ∨ i = 2 := by omega
  · rw [List.append_assoc]
    exact List.take_left' (hlen 0)
  · rw [List.append_assoc, List.drop_left' (hlen 0)]
    exact List.take_left' (hlen 1)
  · rw [List.drop_left' (by rw [List.length_append, hlen, hlen]), List.take_of_length_le (hlen 2).le]

/-- Positions 0 to 11 of the record of a slot in use: what its state does not change (R175). -/
def State.conduitHeading (ch : Channel) : List Byte :=
  [byteOf n.val, ch.stage.byte, (s.conduit n).generation, Port.byte ch.producer,
    yesNo ch.producerPresent, byteOf (s.chargedConduits ch.producer), ch.cls.byte,
    byteOf ch.requestedWindow] ++ halfBytes ch.requestedSize ++ halfBytes ch.holdLimit

theorem State.conduitHeading_length (ch : Channel) : (s.conduitHeading n ch).length = 12 := rfl

theorem State.stageBytes_length (st : Stage) : (s.stageBytes st).length = 8 := by cases st <;> rfl

variable {s n}

/-- The record of a slot in use in its four parts (R175). -/
theorem State.conduitRecord_of_some (hc : s.channel n = some ch) : s.conduitRecord n =
    s.conduitHeading n ch ++ (s.stageBytes ch.stage ++ ([byteOf ch.members.length] ++ memberEntries ch.members)) := by
  simp only [State.conduitRecord, hc, State.conduitHeading, List.append_assoc]

theorem State.conduitRecord_of_none (hc : s.channel n = none) : s.conduitRecord n =
    [byteOf n.val, 0x00, (s.conduit n).generation, 0xFF] ++ List.replicate 17 0 ++ memberEntries [] := by
  simp only [State.conduitRecord, hc]

theorem State.conduitRecord_length (s : State) (n : ConduitNo) : (s.conduitRecord n).length = 45 := by
  cases hc : s.channel n with
  | none => rw [State.conduitRecord_of_none hc, List.length_append, memberEntries_length]; rfl
  | some ch =>
    rw [State.conduitRecord_of_some hc]
    simp only [List.length_append, State.conduitHeading_length, State.stageBytes_length, memberEntries_length,
      List.length_singleton]

theorem State.conduitRecord_heading (hc : s.channel n = some ch) :
    (s.conduitRecord n).take 12 = s.conduitHeading n ch := by
  rw [State.conduitRecord_of_some hc]
  exact List.take_left' (s.conduitHeading_length n ch)

theorem State.conduitRecord_behindHeading (hc : s.channel n = some ch) : (s.conduitRecord n).drop 12 =
    s.stageBytes ch.stage ++ ([byteOf ch.members.length] ++ memberEntries ch.members) := by
  rw [State.conduitRecord_of_some hc]
  exact List.drop_left' (s.conduitHeading_length n ch)

theorem State.conduitRecord_stage (hc : s.channel n = some ch) :
    ((s.conduitRecord n).drop 12).take 8 = s.stageBytes ch.stage := by
  rw [State.conduitRecord_behindHeading hc]
  exact List.take_left' (s.stageBytes_length ch.stage)

theorem State.conduitRecord_behindStage (hc : s.channel n = some ch) : (s.conduitRecord n).drop 20 =
    byteOf ch.members.length :: memberEntries ch.members := by
  rw [show 20 = 12 + 8 from rfl, ← List.drop_drop, State.conduitRecord_behindHeading hc]
  exact List.drop_left' (s.stageBytes_length ch.stage)

theorem State.conduitRecord_memberCount (hc : s.channel n = some ch) :
    (s.conduitRecord n)[20]? = some (byteOf ch.members.length) := by
  have := congrArg (·[0]?) (State.conduitRecord_behindStage hc)
  simpa using this

theorem State.conduitRecord_entry (hc : s.channel n = some ch) {i : Nat} (hi : i < 3) :
    ((s.conduitRecord n).drop (21 + 8 * i)).take 8 = memberEntry ch.members i := by
  rw [show 21 + 8 * i = 20 + (1 + 8 * i) by omega, ← List.drop_drop, State.conduitRecord_behindStage hc,
    Nat.add_comm 1, List.drop_succ_cons]
  exact memberEntries_entry ch.members hi

/-! #### The other information records -/

theorem State.partitionRecord_of_none (hp : s.partition.proposal = none) : s.partitionRecord =
    bigEndian s.partition.generation ++ quotaBlock s.partition.quotas ++ ([0x00, 0, 0xFF] ++ List.replicate 25 0) := by
  simp only [State.partitionRecord, hp]

theorem State.partitionRecord_of_some {pr : Proposal} (hp : s.partition.proposal = some pr) : s.partitionRecord =
    bigEndian s.partition.generation ++ quotaBlock s.partition.quotas ++
      ([0x01, pr.id, Port.byte pr.proposer] ++ quotaBlock pr.quotas ++
        Port.all.map (fun p => (pr.votes.get p).byte) ++ [byteOf (s.timeRemaining pr.deadline)]) := by
  simp only [State.partitionRecord, hp]

theorem State.partitionRecord_length (s : State) : s.partitionRecord.length = 50 := by
  cases hp : s.partition.proposal with
  | none => rw [State.partitionRecord_of_none hp]; rfl
  | some pr => rw [State.partitionRecord_of_some hp]; rfl

theorem State.descriptorRecord_of_none {h : Handle} (hg : s.segment h = none) :
    s.descriptorRecord h = [byteOf h.val, 0x00, 0xFF, 0xFF, 0, 0, 0, 0, 0, 0, 0, 0] := by
  simp only [State.descriptorRecord, hg]
  rfl

theorem State.descriptorRecord_of_filling {h : Handle} {g : Segment} (hg : s.segment h = some g)
    (hst : g.stage = .filling) : s.descriptorRecord h =
      [byteOf h.val, 0x01, Port.byte g.producer, conduitByte g.conduit, 0, 0] ++ halfBytes g.length ++
        [byteOf (blockCount g.length), 0, 0, 0] := by
  simp only [State.descriptorRecord, hg, hst]
  rfl

theorem State.descriptorRecord_of_live {h : Handle} {g : Segment} {q : Half} {r : Refs} (hg : s.segment h = some g)
    (hst : g.stage = .live q r) : s.descriptorRecord h =
      [byteOf h.val, 0x02, Port.byte g.producer, conduitByte g.conduit] ++ bigEndian q ++ halfBytes g.length ++
        [byteOf (blockCount g.length), byteOf r.queue, byteOf r.hold, byteOf r.transfer] := by
  simp only [State.descriptorRecord, hg, hst]
  rfl

theorem State.descriptorRecord_length (s : State) (h : Handle) : (s.descriptorRecord h).length = 12 := by
  cases hg : s.segment h with
  | none => rw [State.descriptorRecord_of_none hg]; rfl
  | some g =>
    cases hst : g.stage with
    | filling => rw [State.descriptorRecord_of_filling hg hst]; rfl
    | live q r => rw [State.descriptorRecord_of_live hg hst]; rfl

theorem State.notify_iff (s : State) (p : Port) : s.notify p = true ↔
    s.Attached p ∧ ((s.events.get p).records ≠ [] ∨ s.attention.queues.get p ≠ []) := by
  simp [State.notify]

end Layouts

end Sys2Proof.Machine

section Records

open Sys2Proof Sys2Proof.Machine

/-- Settles O26: each record is a list of bytes laid out by cases on what it shows. -/
theorem recordsHaveTheirLengths : Obligations.RecordsHaveTheirLengths := by
  refine ⟨⟨fun _ => rfl, EventRecord.bytes_length, fun _ => rfl, fun s => ⟨s.conduitRecord_length,
    s.partitionRecord_length, s.descriptorRecord_length, rfl⟩⟩, fun h hcount => ?_,
    fun k g id n p q w z v lost c m => ?_,
    fun s n => ⟨fun hc => ?_, fun ch hc => ⟨?_, fun d hd => ?_, fun f hf => ?_, ?_, fun i hi => ?_⟩⟩,
    fun s block hblock => ?_, fun s h b hb => ?_, fun s => rfl, State.notify_iff⟩
  · exact ⟨_, rfl, headerByte_bits h.portState ⟨h.attentionCount, by omega⟩ h.overflow⟩
  · rintro rfl rfl
    and_intros
    all_goals rfl
  · rw [State.conduitRecord_of_none hc]
    rfl
  · rw [State.conduitRecord_heading hc]
    rfl
  · rw [State.conduitRecord_stage hc, hd]
    rfl
  · rw [State.conduitRecord_stage hc]
    cases hst : ch.stage with
    | offered d => rw [hst] at hf; cases hf
    | opened x => rw [hst] at hf; cases hf; rfl
    | draining x => rw [hst] at hf; cases hf; rfl
  · exact State.conduitRecord_memberCount hc
  · rw [State.conduitRecord_entry hc hi]
    unfold memberEntry
    cases ch.members[i]? with
    | none => rfl
    | some e =>
      obtain ⟨port, answer, queue, holds, lapsed⟩ := e
      cases answer <;> rfl
  · have hquotas : ∀ q, quotaBlock q = block q := fun q => (hblock q).symm
    refine ⟨fun hp => ?_, fun pr hp => ?_⟩
    · rw [State.partitionRecord_of_none hp, hquotas]
      simp only [List.append_assoc]
    · rw [State.partitionRecord_of_some hp, hquotas, hquotas]
      simp only [List.append_assoc]
      rfl
  · subst hb
    refine ⟨fun hg => State.descriptorRecord_of_none hg, fun x c hg hc => ?_⟩
    have hconduit : conduitByte x.conduit = c := hc.symm
    subst hconduit
    exact ⟨fun hst => State.descriptorRecord_of_filling hg hst, fun q r hst => State.descriptorRecord_of_live hg hst⟩

end Records

/-! ### The Attention Unit: requests -/

namespace Sys2Proof.Machine

section Requests

variable {s t u : State} {p q : Port}

/-! #### Queues and pair states -/

@[simp] theorem Attention.setPair_queues (a : Attention) (source target : Port) (st : PairState) :
    (a.setPair source target st).queues = a.queues := rfl

@[simp] theorem Attention.setQueue_pair (a : Attention) (target : Port) (l : List AttentionEntry) (p q : Port) :
    (a.setQueue target l).pair p q = a.pair p q := rfl

theorem Attention.setPair_pair (a : Attention) (source target : Port) (st : PairState) (p q : Port) :
    (a.setPair source target st).pair p q = if p = source ∧ q = target then st else a.pair p q := by
  unfold Attention.pair Attention.setPair
  rw [PerPort.get_set]
  by_cases hp : p = source
  · subst hp
    simp [PerPort.get_set]
  · simp [hp]

theorem Attention.setQueue_get (a : Attention) (target : Port) (l : List AttentionEntry) (q : Port) :
    (a.setQueue target l).queues.get q = if q = target then l else a.queues.get q := PerPort.get_set _ _ _ _

/-- A queue without one source has the entries of the others. -/
theorem mem_map_withoutSource (l : List AttentionEntry) :
    q ∈ (withoutSource p l).map (fun e => e.source) ↔ q ≠ p ∧ q ∈ l.map (fun e => e.source) := by
  simp only [withoutSource, List.mem_map, List.mem_filter, bne_iff_ne]
  constructor
  · rintro ⟨e, ⟨he, hne⟩, rfl⟩; exact ⟨hne, e, he, rfl⟩
  · rintro ⟨hne, e, he, rfl⟩; exact ⟨e, ⟨he, hne⟩, rfl⟩

/-! #### The law of the Attention Unit -/

/-- A pair is PENDING exactly while its source stands in the target's queue (R102). -/
theorem AttentionLaw.pending_iff (h : AttentionLaw s) (p t : Port) :
    s.attention.pair p t = .pending ↔ p ∈ (s.attention.queues.get t).map (fun e => e.source) :=
  (h.pendingIsQueued p t).trans List.mem_map.symm

/-- A pair that is not NONE is of two distinct ATTACHED ports. -/
theorem AttentionLaw.of_pair (h : AttentionLaw s) {p t : Port} (hpair : s.attention.pair p t ≠ .none) :
    p ≠ t ∧ s.Attached p ∧ s.Attached t := by
  refine ⟨?_, ?_, ?_⟩
  · rintro rfl; exact hpair (h.noneWithItself p)
  · by_contra hna; exact hpair (h.unattached p hna t).1
  · by_contra hna; exact hpair (h.unattached t hna p).2

/-- The law reads the Attention Unit and who is ATTACHED, and a port may become ATTACHED. -/
theorem AttentionLaw.congr (h : AttentionLaw s) (ha : t.attention = s.attention)
    (hat : ∀ q, s.Attached q → t.Attached q) : AttentionLaw t where
  oneEach := by rw [ha]; exact h.oneEach
  pendingIsQueued := by rw [ha]; exact h.pendingIsQueued
  vectors := by rw [ha]; exact h.vectors
  noneWithItself := by rw [ha]; exact h.noneWithItself
  unattached p hna := by rw [ha]; exact h.unattached p (fun hp => hna (hat p hp))

theorem AttentionLaw.of_ports (h : AttentionLaw s) (ha : t.attention = s.attention) (hp : t.ports = s.ports) :
    AttentionLaw t := h.congr ha (fun q hq => by rw [State.Attached, State.port_congr hp]; exact hq)

theorem AttentionLaw.surroundings (h : AttentionLaw s) (hs : SameSurroundings s t) : AttentionLaw t :=
  h.of_ports hs.attention hs.ports

theorem AttentionLaw.reports (h : AttentionLaw s) (ha : t.attention = s.attention) (hr : Reports s t) :
    AttentionLaw t := h.congr ha (fun q => (hr.attached q).2)

/-- A port controller whose port does not leave ATTACHED. -/
theorem AttentionLaw.setPort (h : AttentionLaw s) {c : PortController} (hc : s.Attached p → c.state = .attached) :
    AttentionLaw (s.setPort p c) :=
  h.congr rfl (fun q hq => by
    rw [State.Attached, State.setPort_port]
    split
    · rename_i e; exact hc (e ▸ hq)
    · exact hq)

/-- What one request changes: the state of its pair, and in the target's queue the entry of its source alone. -/
theorem AttentionLaw.request (h : AttentionLaw s) {target : Port} {l : List AttentionEntry} {st : PairState}
    (hne : p ≠ target) (hp : s.Attached p) (ht : s.Attached target) (hnodup : (l.map (fun e => e.source)).Nodup)
    (hvectors : ∀ e ∈ l, e.vector ≤ 63) (hsource : p ∈ l.map (fun e => e.source) ↔ st = .pending)
    (hothers : ∀ q, q ≠ p → (q ∈ l.map (fun e => e.source) ↔
      q ∈ (s.attention.queues.get target).map (fun e => e.source))) :
    AttentionLaw { s with attention := (s.attention.setQueue target l).setPair p target st } := by
  refine ⟨fun t => ?_, fun q t => ?_, fun t => ?_, fun q => ?_, fun x hx q => ⟨?_, ?_⟩⟩
  all_goals simp only [Attention.setPair_queues, Attention.setPair_pair, Attention.setQueue_pair,
    Attention.setQueue_get]
  · split
    · exact hnodup
    · exact h.oneEach t
  · rw [← List.mem_map]
    by_cases htt : t = target
    · subst htt
      by_cases hq : q = p
      · subst hq; simp [hsource]
      · rw [if_neg (fun e => hq e.1), if_pos rfl, hothers q hq, h.pending_iff]
    · rw [if_neg (fun e => htt e.2), if_neg htt, h.pending_iff]
  · split
    · exact hvectors
    · exact h.vectors t
  · rw [if_neg (fun e => hne (e.1.symm.trans e.2))]
    exact h.noneWithItself q
  · rw [if_neg (fun e : x = p ∧ q = target => hx (e.1 ▸ hp))]
    exact (h.unattached x hx q).1
  · rw [if_neg (fun e : q = p ∧ x = target => hx (e.2 ▸ ht))]
    exact (h.unattached x hx q).2

/-- Without the requests to and from a port, the port may leave ATTACHED (R109, R110). -/
theorem AttentionLaw.without (h : AttentionLaw s) (ha : t.attention = s.attention.without p)
    (hat : ∀ q, q ≠ p → s.Attached q → t.Attached q) : AttentionLaw t where
  oneEach x := by
    rw [ha, Attention.without_queue]
    split
    · exact List.nodup_nil
    · exact (h.oneEach x).sublist (List.filter_sublist.map _)
  pendingIsQueued q x := by
    rw [ha, Attention.without_pair, Attention.without_queue, ← List.mem_map]
    by_cases hx : x = p
    · simp [hx]
    · have hqueue := mem_map_withoutSource (p := p) (q := q) (s.attention.queues.get x)
      rw [withoutSource] at hqueue
      by_cases hq : q = p
      · simp [hq]
      · rw [if_neg (not_or.2 ⟨hq, hx⟩), if_neg hx, hqueue, h.pending_iff, and_iff_right hq]
  vectors x e := by
    rw [ha, Attention.without_queue]
    split
    · nofun
    · exact fun he => h.vectors x e (List.mem_of_mem_filter he)
  noneWithItself q := by
    rw [ha, Attention.without_pair]
    split
    · rfl
    · exact h.noneWithItself q
  unattached x hna q := by
    have gone : x ≠ p → s.attention.pair x q = .none ∧ s.attention.pair q x = .none := fun hx =>
      h.unattached x (fun hxa => hna (hat x hx hxa)) q
    rw [ha, Attention.without_pair, Attention.without_pair]
    constructor
    · split
      · rfl
      · rename_i hx; exact (gone (fun e => hx (.inl e))).1
    · split
      · rfl
      · rename_i hx; exact (gone (fun e => hx (.inr e))).2

/-! #### The three commands -/

theorem portOf?_eq_some {b : Byte} : portOf? b = some p ↔ b.toNat = p.toNat := by
  constructor
  · intro h
    have := List.find?_some h
    exact (beq_iff_eq.1 this).symm
  · intro h
    simp only [portOf?, h]
    cases p <;> rfl

theorem portOf?_eq_none {b : Byte} : portOf? b = none ↔ 3 < b.toNat := by
  constructor
  · intro h
    by_contra hb
    have hp : ∀ p : Port, b.toNat ≠ p.toNat := fun p e => by rw [portOf?_eq_some.2 e] at h; cases h
    have h0 := hp .p0
    have h1 := hp .p1
    have h2 := hp .p2
    have h3 := hp .p3
    simp only [Port.toNat] at h0 h1 h2 h3
    omega
  · intro h
    cases hp : portOf? b with
    | none => rfl
    | some p =>
      have := portOf?_eq_some.1 hp
      have := p.toNat_lt
      omega

/-- ATTEND joins a new source to the tail, as a pair that is not PENDING has no entry (R102, R104). -/
theorem AttentionLaw.attend (h : AttentionLaw s) (hp : s.Attached p) (target vector : Byte) (argument : Half) :
    AttentionLaw (attendAnswer p target vector argument s).state := by
  unfold attendAnswer
  split
  · exact h
  · rename_i t _
    split
    · exact h
    · rename_i hrange
      obtain ⟨hne, hvector⟩ := not_or.1 hrange
      split
      · exact h
      · rename_i ht
        split
        · exact h
        · rename_i hpair
          have hnew : p ∉ (s.attention.queues.get t).map (fun e => e.source) :=
            fun hm => hpair ((h.pending_iff p t).2 hm)
          refine h.request (Ne.symm hne) hp (not_not.1 ht) ?_ (fun e he => ?_) (by simp) (fun q hq => by simp [hq])
          · rw [List.map_append, List.nodup_append]
            refine ⟨h.oneEach t, List.nodup_singleton _, fun x hx y hy hxy => hnew ?_⟩
            have hyp : y = p := List.mem_singleton.1 hy
            rwa [← hyp, ← hxy]
          · rcases List.mem_append.1 he with he | he
            · exact h.vectors t e he
            · rw [List.mem_singleton.1 he]
              exact Nat.le_of_not_lt hvector

/-- The source of the head entry has no other entry in the queue (R101, R105). -/
theorem AttentionLaw.acceptAttn (h : AttentionLaw s) (p : Port) : AttentionLaw (acceptAttnAnswer p s).state := by
  unfold acceptAttnAnswer
  split
  · exact h
  · rename_i e rest hqueue
    have hpending : s.attention.pair e.source p = .pending := by
      rw [h.pending_iff, hqueue]
      exact List.mem_cons_self
    obtain ⟨hne, hsource, hp⟩ := h.of_pair (by rw [hpending]; nofun)
    have hnodup := h.oneEach p
    rw [hqueue, List.map_cons, List.nodup_cons] at hnodup
    have taken := h.request (st := .taken) hne hsource hp hnodup.2
      (fun x hx => h.vectors p x (hqueue ▸ List.mem_cons_of_mem e hx))
      (iff_of_false hnodup.1 nofun) (fun q hq => by rw [hqueue, List.map_cons, List.mem_cons, or_iff_right hq])
    exact taken.surroundings (State.appendEvent_surroundings _ _ _)

/-- Behind WITHDRAW_ATTN the target's queue holds no entry of the source (R107). -/
theorem AttentionLaw.withdrawAttn (h : AttentionLaw s) (p : Port) (target : Byte) :
    AttentionLaw (withdrawAttnAnswer p target s).state := by
  unfold withdrawAttnAnswer
  split
  · exact h
  · rename_i t _
    split
    · exact h
    · split
      · exact h
      · rename_i hpair
        obtain ⟨hne, hp, ht⟩ := h.of_pair (p := p) (t := t) (by rw [hpair]; nofun)
        have hgone : p ∉ (s.attention.queues.get t).map (fun e => e.source) := fun hm => by
          cases hpair.symm.trans ((h.pending_iff p t).2 hm)
        have ended := h.request (st := .none) hne hp ht (h.oneEach t) (h.vectors t) (iff_of_false hgone nofun)
          (fun _ _ => .rfl)
        rwa [Attention.setQueue, PerPort.set_get_self] at ended
      · rename_i hpair
        obtain ⟨hne, hp, ht⟩ := h.of_pair (p := p) (t := t) (by rw [hpair]; nofun)
        refine h.request hne hp ht ((h.oneEach t).sublist (List.filter_sublist.map _))
          (fun e he => h.vectors t e (List.mem_of_mem_filter he)) (iff_of_false ?_ nofun) (fun q hq => ?_)
        · rw [mem_map_withoutSource]; exact fun e => e.1 rfl
        · rw [mem_map_withoutSource, and_iff_right hq]

end Requests

/-! ### Requests behind the other units -/

section RequestsAside

variable (s : State) (p : Port)

/-! #### Proposals and expiries -/

theorem State.resolveProposal_attention (pr : Proposal) (r : ProposalResult) :
    (s.resolveProposal pr r).attention = s.attention := (State.appendEvents_surroundings _ _ _).attention

theorem State.adoptProposal_attention (pr : Proposal) : (s.adoptProposal pr).attention = s.attention := by
  unfold State.adoptProposal
  split
  · exact s.resolveProposal_attention pr _
  · exact State.resolveProposal_attention _ pr _

theorem State.abandonProposal_attention : (s.abandonProposal p).attention = s.attention := by
  unfold State.abandonProposal
  split
  · rfl
  · exact s.resolveProposal_attention _ _

theorem State.makeProposal_attention (q : PerPort Quota) : (s.makeProposal p q).attention = s.attention := by
  unfold State.makeProposal
  simp only
  split
  · exact (State.appendEvents_surroundings _ _ _).attention
  · rw [State.adoptProposal_attention, (State.appendEvents_surroundings _ _ _).attention]

theorem State.lapseProposal_attention : s.lapseProposal.attention = s.attention := by
  unfold State.lapseProposal
  split
  · rfl
  · split
    · exact s.resolveProposal_attention _ _
    · rfl

theorem State.takeExpiry_attention (x : Expiry) : (s.takeExpiry x).attention = s.attention := by
  cases x with
  | offer n => exact (s.lapseOffer_surroundings n).attention
  | proposal => exact s.lapseProposal_attention
  | hold n p q => exact (s.lapseHold_surroundings n p q).attention

theorem proposeAnswer_attention (q : PerPort QuotaArgument) : (proposeAnswer p q s).state.attention = s.attention := by
  unfold proposeAnswer
  simp only
  split
  · rfl
  · split
    · rfl
    · split
      · rfl
      · split
        · rfl
        · exact s.makeProposal_attention p _

theorem voteAnswer_attention (id choice : Byte) : (voteAnswer p id choice s).state.attention = s.attention := by
  unfold voteAnswer
  split
  · rfl
  · split
    · rfl
    · split
      · rfl
      · split
        · rfl
        · exact s.resolveProposal_attention _ _
        · simp only
          split
          · rfl
          · exact State.adoptProposal_attention _ _

theorem cancelProposalAnswer_attention (id : Byte) : (cancelProposalAnswer p id s).state.attention = s.attention := by
  unfold cancelProposalAnswer
  split
  · rfl
  · split
    · rfl
    · split
      · rfl
      · exact s.resolveProposal_attention _ _

theorem nextEventAnswer_attention : (nextEventAnswer p s).state.attention = s.attention := by
  unfold nextEventAnswer
  split <;> rfl

theorem takeAnyAnswer_attention : (takeAnyAnswer p s).state.attention = s.attention := by
  obtain he | ⟨n, u, hs, he⟩ := takeAnyAnswer_cases p s
  · rw [he]
  · rw [he]; exact hs.attention

/-! #### Transactions -/

theorem State.accept_attention (c : Command) (named : Option ConduitNo) (x : Transaction) (a : Answer) :
    (State.accept p c named x a).attention = a.state.attention := by
  unfold State.accept State.enterReply State.writeOutcome
  split <;> rfl

theorem State.receivePayload_attention (bytes : List Byte) : (s.receivePayload p bytes).attention = s.attention := by
  unfold State.receivePayload
  split
  · simp only
    split <;> rfl
  · rfl

theorem State.endTransfer_attention : (s.endTransfer p).attention = s.attention := by
  unfold State.endTransfer
  split
  · rfl
  · exact (s.claim_surroundings .transferEnd _).attention

theorem State.completeFill_attention (h : Handle) (count : Nat) :
    (s.completeFill p h count).attention = s.attention := by
  unfold State.completeFill
  split
  · rfl
  · split
    · exact (s.freeDescriptor_surroundings h).attention
    · split
      · exact (s.freeDescriptor_surroundings h).attention
      · exact (s.deliver_surroundings h _ _ _ _).attention

theorem State.releaseSelect_attention : (s.releaseSelect p).attention = s.attention := by
  unfold State.releaseSelect
  split
  · rfl
  · split
    · rfl
    · rfl
    · exact s.endTransfer_attention p
    · split
      · rfl
      · exact s.completeFill_attention p _ _

theorem State.abort_attention : (s.abort p).attention = s.attention := by
  unfold State.abort
  split
  · exact (s.freeDescriptor_surroundings _).attention
  · exact s.endTransfer_attention p

theorem State.refuseCode_attention (code : Byte) : (s.refuseCode p code).attention = s.attention := by
  unfold State.refuseCode
  split
  · split
    · rfl
    · rfl
    · exact s.receivePayload_attention p _
    · rfl
  · rfl

theorem State.refuseTruncated_attention (code : Byte) (args : List Byte) :
    (s.refuseTruncated p code args).attention = s.attention := by
  unfold State.refuseTruncated
  split
  · split <;> rfl
  · rfl

/-! #### Joining and departing -/

theorem State.attach_attention : (s.attach p).attention = s.attention := by
  unfold State.attach
  simp only
  rw [(State.appendEvents_surroundings _ _ _).attention, State.abandonProposal_attention]
  rfl

/-- A departure ends the requests to and from its port (R109, R110). -/
theorem State.depart_attention (cause : DepartureCause) (left : PortState) :
    (s.depart p cause left).attention = s.attention.without p := by
  unfold State.depart
  simp only
  rw [(State.appendEvents_surroundings _ _ _).attention,
    show ∀ u : State, (u.clearEvents p).attention = u.attention from fun _ => rfl, State.abandonProposal_attention,
    State.departAttention_eq, (State.tell_surroundings _ _).attention]
  exact congrArg (fun a => Attention.without a p) (State.departConduits_surroundings _ p).attention

end RequestsAside

/-! ### The law of the Attention Unit, step by step -/

section AttentionUnit

variable {s t u : State} {p : Port}

theorem AttentionLaw.attach (h : AttentionLaw s) (p : Port) : AttentionLaw (s.attach p) :=
  h.congr (s.attach_attention p) (fun q hq => by
    rw [State.Attached, State.port, State.attach_ports, PerPort.get_set]
    split
    · rfl
    · exact hq)

theorem AttentionLaw.depart (h : AttentionLaw s) (p : Port) (cause : DepartureCause) (left : PortState) :
    AttentionLaw (s.depart p cause left) :=
  h.without (s.depart_attention p cause left) (fun q hne hq => by
    rw [State.Attached, State.port, State.depart_ports, PerPort.get_set_ne _ _ hne]
    exact hq)

/-- A command frame keeps the law where its owning block's answer does, once the port's state admits the command. -/
theorem AttentionLaw.transact (h : AttentionLaw s) (c : Command) (args : List Byte) (named : Option ConduitNo)
    (owner : State → Answer) (ho : ∀ shown, s.shownState p = some shown → admission c shown = none →
      AttentionLaw (owner s).state) : AttentionLaw (s.transact p c args named owner) := by
  obtain he | ⟨bytes, he⟩ | ⟨x, shown, hshown, -, -, -, he⟩ := s.transact_cases p c args named owner
  · rw [he]; exact h
  · rw [he]; exact h.reports (s.receivePayload_attention p bytes) ((Reports.refl s).receivePayload p bytes)
  · rw [he]
    refine AttentionLaw.reports ?_ (State.accept_attention p c named x _) (State.accept_reports p c named x _)
    cases hadm : admission c shown with
    | some r => exact h
    | none => exact ho shown hshown hadm

theorem AttentionLaw.releaseSelect (h : AttentionLaw s) (p : Port) : AttentionLaw (s.releaseSelect p) :=
  h.reports (s.releaseSelect_attention p) ((Reports.refl s).releaseSelect p)

/-- A port that leaves ATTACHED at its reset line departs (R140, R143). -/
theorem AttentionLaw.portResetAsserted (h : AttentionLaw s) (hi : execPortResetAsserted p s = .next t) :
    AttentionLaw t := by
  have sameAttached := (Reports.refl s).abort p
  have aborted := h.reports (s.abort_attention p) sameAttached
  simp only [execPortResetAsserted, Host.Outcome.next.injEq] at hi
  subst hi
  split
  · exact (aborted.depart p .reset .held).setPort id
  · rename_i hst
    have hna : ¬ (s.abort p).Attached p := fun ha => by
      rw [sameAttached.attached, State.Attached, hst] at ha
      cases ha
    have held : AttentionLaw ((s.abort p).enterHeld p) := aborted.setPort (fun ha => absurd ha hna)
    exact held.setPort id
  · split
    · have ended : AttentionLaw (s.endTransaction p) := h.setPort id
      have reset : AttentionLaw ((s.endTransaction p).resetOutcome p) := ended.setPort id
      exact reset.setPort id
    · exact h.setPort id

/-- A port whose line was asserted was HELD, and had no requests to lose (R142). -/
theorem AttentionLaw.portResetReleased (h : AttentionLaw s) (hp : PortLaw s)
    (hi : execPortResetReleased p s = .next t) : AttentionLaw t := by
  cases hline : (s.port p).resetAsserted with
  | false => cases hi.symm.trans (exec_portResetReleased_unasserted hline); exact h
  | true =>
    by_cases hrun : s.time.reset = .running
    · cases hi.symm.trans (exec_portResetReleased_operation hline hrun)
      exact h.setPort (fun ha => absurd ha (State.not_attached_of_held (hp.heldByReset p hline)))
    · cases hi.symm.trans (exec_portResetReleased_before hline hrun)
      exact h.setPort id

theorem AttentionLaw.selectAsserted (h : AttentionLaw s) (hi : execSelectAsserted p s = .next t) : AttentionLaw t := by
  simp only [execSelectAsserted, Host.Outcome.next.injEq] at hi
  subst hi
  split
  · exact h
  · exact (h.releaseSelect p).setPort id

/-- At power-on there are no requests, and no port is ATTACHED. -/
theorem AttentionLaw.globalReset (s : State) : AttentionLaw s.globalReset :=
  reset_attentionLaw.congr rfl (fun q hq => by
    rw [State.Attached, reset_port] at hq
    cases hq)

/-- Operation begins with no port ATTACHED (R184). -/
theorem AttentionLaw.endStartUp (h : AttentionLaw s) (hp : PortLaw s) (hr : s.time.reset = .startUp) :
    AttentionLaw s.endStartUp :=
  h.congr rfl (fun q hq =>
    absurd hq (State.not_attached_of_held (hp.heldBeforeOperation (by rw [hr]; nofun) q)))

theorem AttentionLaw.countAdvance (h : AttentionLaw s) (hp : PortLaw s) : AttentionLaw s.countAdvance := by
  unfold State.countAdvance
  split
  · exact h
  · rename_i hr; exact h.endStartUp hp hr
  · exact h.of_ports rfl rfl

/-- The law of the Attention Unit beside the law of the port controllers, which tells who is HELD as operation
begins. -/
structure AttentionInTime (s : State) : Prop where
  ports : PortLaw s
  attention : AttentionLaw s

theorem AttentionInTime.takeExpiry (h : AttentionInTime s) (x : Expiry) : AttentionInTime (s.takeExpiry x) :=
  ⟨h.ports.takeExpiry x, h.attention.of_ports (s.takeExpiry_attention x) (s.takeExpiry_ports x)⟩

theorem AttentionInTime.countAdvance (h : AttentionInTime s) : AttentionInTime s.countAdvance :=
  ⟨h.ports.countAdvance, h.attention.countAdvance h.ports⟩

/-- Neither law reads the count of free choices, nor the divider. -/
theorem AttentionInTime.blocks (h : AttentionInTime s) (choices divider : Nat) :
    AttentionInTime { s with choices, time := { s.time with divider } } :=
  ⟨h.ports.congr rfl rfl, h.attention.of_ports rfl rfl⟩

theorem AttentionInTime.advance (h : AttentionInTime s) : AttentionInTime s.advance :=
  s.advance_keeps (fun _ x h => h.takeExpiry x) (fun s k h => h.blocks k s.time.divider) (fun _ h => h.countAdvance) h

theorem AttentionInTime.referencePeriod (h : AttentionInTime s) : AttentionInTime s.referencePeriod :=
  s.referencePeriod_keeps (fun _ x h => h.takeExpiry x) (fun s k h => h.blocks k s.time.divider)
    (fun _ h => h.countAdvance) (fun s k h => h.blocks s.choices k) h

/-- Every row keeps the law of the Attention Unit. -/
theorem exec_attentionLaw {i : Instr} (hp : PortLaw s) (h : AttentionLaw s) (hi : exec i s = .next t) :
    AttentionLaw t := by
  have admitted {p : Port} {c : Command} {args : List Byte} {named : Option ConduitNo} {owner : State → Answer}
      (ho : ∀ shown, s.shownState p = some shown → admission c shown = none → AttentionLaw (owner s).state)
      (hi : Host.Outcome.next (s.transact p c args named owner) = (.next t : Host.Outcome State Fault Refusal)) :
      AttentionLaw t := by
    cases hi
    exact h.transact c args named owner ho
  have kept {p : Port} {c : Command} {args : List Byte} {named : Option ConduitNo} {owner : State → Answer}
      (ho : AttentionLaw (owner s).state) :
      Host.Outcome.next (s.transact p c args named owner) = (.next t : Host.Outcome State Fault Refusal) →
      AttentionLaw t := admitted (fun _ _ _ => ho)
  have around {p : Port} {c : Command} {args : List Byte} {named : Option ConduitNo} {owner : State → Answer}
      (ho : SameSurroundings s (owner s).state) :
      Host.Outcome.next (s.transact p c args named owner) = (.next t : Host.Outcome State Fault Refusal) →
      AttentionLaw t := kept (h.surroundings ho)
  have reported {u : State} (ha : u.attention = s.attention) (hu : Reports s u)
      (hi : Host.Outcome.next u = (.next t : Host.Outcome State Fault Refusal)) : AttentionLaw t := by
    cases hi
    exact h.reports ha hu
  have same := Reports.refl s
  cases i with
  | status p => exact kept h hi
  | attach p => exact kept (h.attach p) hi
  | detach p => exact kept (h.depart p .detach .detached) hi
  | nextEvent p => exact kept (h.of_ports (nextEventAnswer_attention s p) (nextEventAnswer_quiet p s).ports) hi
  | offer p ms cl w sz hl => exact around (offerAnswer_surroundings p ms cl w sz hl s) hi
  | answer p c g ch wl sl => exact around (answerAnswer_surroundings p c g ch wl sl s) hi
  | close p c => exact around (closeAnswer_surroundings p c s) hi
  | leave p c => exact around (leaveAnswer_surroundings p c s) hi
  | flush p c => exact around (flushAnswer_surroundings p c s) hi
  | conduitInfo p c => exact kept (by rw [State.conduitInfo_state]; exact h) hi
  | post p c len => exact around (postAnswer_surroundings p c len s) hi
  | take p c => exact around (takeAnswer_surroundings p c s) hi
  | takeAny p => exact kept (h.reports (takeAnyAnswer_attention s p) (takeAnyAnswer_reports p s)) hi
  | peek p c => exact around (peekAnswer_surroundings p c s) hi
  | readHeld p c q => exact around (readHeldAnswer_surroundings p c q s) hi
  | release p c q => exact around (releaseAnswer_surroundings p c q s) hi
  | attend p n v a => exact admitted (fun _ hs ha => h.attend (attached_of_admission (by nofun) hs ha) n v a) hi
  | acceptAttn p => exact kept (h.acceptAttn p) hi
  | withdrawAttn p n => exact kept (h.withdrawAttn p n) hi
  | propose p q => exact kept (h.of_ports (proposeAnswer_attention s p q) (proposeAnswer_quiet p q s).ports) hi
  | vote p id ch => exact kept (h.of_ports (voteAnswer_attention s p id ch) (voteAnswer_quiet p id ch s).ports) hi
  | cancelProposal p id =>
    exact kept (h.of_ports (cancelProposalAnswer_attention s p id) (cancelProposalAnswer_quiet p id s).ports) hi
  | readPartition p => exact kept h hi
  | poolInfo p => exact kept h hi
  | segmentInfo p x => exact kept h hi
  | badCommand p code =>
    simp only [exec, execBadCommand] at hi
    split at hi
    · exact reported (s.refuseCode_attention p code) (same.refuseCode p code) hi
    · cases hi
  | truncated p code args =>
    simp only [exec, execTruncated] at hi
    split at hi
    · split at hi
      · exact reported (s.refuseTruncated_attention p code args) (same.refuseTruncated p code args) hi
      · cases hi
    · cases hi
  | fillCompletion p bytes =>
    simp only [exec, execFillCompletion, Host.Outcome.next.injEq] at hi
    subst hi
    split
    · exact (h.reports (s.receivePayload_attention p bytes) (same.receivePayload p bytes)).releaseSelect p
    · exact h
  | transferEnd p => cases hi; exact h.releaseSelect p
  | portResetAsserted p => exact h.portResetAsserted hi
  | portResetReleased p => exact h.portResetReleased hp hi
  | globalResetAsserted => cases hi; exact .globalReset s
  | globalResetReleased =>
    simp only [exec, execGlobalResetReleased, Host.Outcome.next.injEq] at hi
    subst hi
    split
    · exact h.of_ports rfl rfl
    · exact h
  | intervalAdvance => cases hi; exact (AttentionInTime.advance ⟨hp, h⟩).attention
  | endOfStartUp =>
    simp only [exec, execEndOfStartUp, Host.Outcome.next.injEq] at hi
    subst hi
    split
    · rename_i hr; exact h.endStartUp hp hr
    · exact h
  | offerLapse n => cases hi; exact (AttentionInTime.takeExpiry ⟨hp, h⟩ (.offer n)).attention
  | proposalLapse => cases hi; exact (AttentionInTime.takeExpiry ⟨hp, h⟩ .proposal).attention
  | holdLapse n p q => cases hi; exact (AttentionInTime.takeExpiry ⟨hp, h⟩ (.hold n p q)).attention
  | selectAsserted p => exact h.selectAsserted hi

end AttentionUnit

end Sys2Proof.Machine

open Sys2Proof Sys2Proof.Machine in
/-- Settles O9: ATTEND, ACCEPT_ATTN and WITHDRAW_ATTN change one pair and its entry together, a departure ends every
request of its port, and no other row changes a request or makes an ATTACHED port leave. -/
theorem everyStepKeepsTheAttentionLaw : Obligations.EveryStepKeepsTheAttentionLaw := by
  intro s t hp h hstep
  obtain ⟨-, rfl⟩ | ⟨i, rest, -, hi⟩ := step_cases hstep
  · exact (AttentionInTime.referencePeriod ⟨hp, h⟩).attention
  · exact exec_attentionLaw hp.of_pending (h.of_ports (t := { s with pending := rest }) rfl rfl) hi

/-! ### The commands of the Attention Unit, at their acceptance -/

namespace Sys2Proof.Machine

section AttentionCommands

variable {s u : State} {p t : Port} {target vector : Byte} {argument : Half}

/-- An accepted command that names no conduit and places no handle, written and replied. -/
theorem State.transact_unnamed_done {c : Command} {args : List Byte} {owner : State → Answer} {fields : List Byte}
    (ha : s.Awaits p .attached) (hc : c ≠ .attach ∧ c ≠ .status ∧ c ≠ .detach ∧ c ≠ .post)
    (ho : owner s = { state := u, outcome := .done, fields }) (hu : u.ports = s.ports) :
    s.transact p c args none owner = u.replied p c .done none none fields := by
  rw [State.transact_of_attached ha hc.1 ho (by rw [State.port_congr hu]) (fun _ => hc.2)]
  rfl

/-- ATTEND checks the target and the vector first (R103). -/
theorem attendAnswer_badArgument (h : 3 < target.toNat ∨ target.toNat = p.toNat ∨ 63 < vector.toNat) :
    attendAnswer p target vector argument s = refuse s .badArgument := by
  unfold attendAnswer
  cases ht : portOf? target with
  | none => rfl
  | some t =>
    have hnat := portOf?_eq_some.1 ht
    refine if_pos ?_
    obtain h | h | h := h
    · rw [portOf?_eq_none.2 h] at ht; cases ht
    · exact .inl (Port.toNat_injective (hnat.symm.trans h))
    · exact .inr h

/-- ATTEND behind its checks of the arguments (R104). -/
theorem attendAnswer_of_target (ht : target.toNat = t.toNat) (hne : t ≠ p) (hv : vector.toNat ≤ 63) :
    attendAnswer p target vector argument s =
      if ¬ s.Attached t then refuse s .peerAbsent
      else if s.attention.pair p t = .pending then refuse s .busy
      else
        { state := { s with attention :=
            (s.attention.setQueue t (s.attention.queues.get t ++
              [{ source := p, vector := vector.toNat, argument }])).setPair p t .pending }
          outcome := .done } := by
  simp only [attendAnswer, portOf?_eq_some.2 ht]
  exact if_neg (not_or.2 ⟨hne, Nat.not_lt.2 hv⟩)

/-- WITHDRAW_ATTN checks the target first (R107). -/
theorem withdrawAttnAnswer_badArgument (h : 3 < target.toNat ∨ target.toNat = p.toNat) :
    withdrawAttnAnswer p target s = refuse s .badArgument := by
  unfold withdrawAttnAnswer
  cases ht : portOf? target with
  | none => rfl
  | some t =>
    have hnat := portOf?_eq_some.1 ht
    refine if_pos ?_
    obtain h | h := h
    · rw [portOf?_eq_none.2 h] at ht; cases ht
    · exact Port.toNat_injective (hnat.symm.trans h)

theorem withdrawAttnAnswer_pending (ht : target.toNat = t.toNat) (hne : t ≠ p)
    (hpair : s.attention.pair p t = .pending) : withdrawAttnAnswer p target s =
      { state := { s with attention :=
          (s.attention.setQueue t (withoutSource p (s.attention.queues.get t))).setPair p t .none }
        outcome := .done } := by
  simp only [withdrawAttnAnswer, portOf?_eq_some.2 ht, if_neg hne, hpair]

theorem withdrawAttnAnswer_taken (ht : target.toNat = t.toNat) (hne : t ≠ p)
    (hpair : s.attention.pair p t = .taken) : withdrawAttnAnswer p target s =
      refuse { s with attention := s.attention.setPair p t .none } .alreadyTaken := by
  simp only [withdrawAttnAnswer, portOf?_eq_some.2 ht, if_neg hne, hpair, refuse]

theorem withdrawAttnAnswer_none (ht : target.toNat = t.toNat) (hne : t ≠ p)
    (hpair : s.attention.pair p t = .none) : withdrawAttnAnswer p target s = refuse s .noPending := by
  simp only [withdrawAttnAnswer, portOf?_eq_some.2 ht, if_neg hne, hpair]

end AttentionCommands

end Sys2Proof.Machine

section AttentionRequests

open Sys2Proof Sys2Proof.Machine

/-- Settles O51: each check of ATTEND refuses in its turn, and an ATTEND that passes them all is accepted. -/
theorem attendQueuesTheRequest : Obligations.AttendQueuesTheRequest := by
  intro s p target vector argument ha
  have refused {o : OutcomeCode} (ho : attendAnswer p target vector argument s = refuse s o) (hd : o ≠ .done) :
      exec (.attend p target vector argument) s = .next (s.replied p .attend o none none []) :=
    congrArg Host.Outcome.next (State.transact_refused ha nofun ho hd)
  refine ⟨fun h => refused (attendAnswer_badArgument h) nofun, fun t ht hne hv => ?_⟩
  have answer := attendAnswer_of_target (s := s) (argument := argument) ht hne hv
  refine ⟨fun hat => ?_, fun hat hpair => ?_, fun hat hpair => ?_⟩
  · exact refused (answer.trans (if_pos hat)) nofun
  · rw [if_neg (not_not.2 hat), if_pos hpair] at answer
    exact refused answer nofun
  · rw [if_neg (not_not.2 hat), if_neg hpair] at answer
    exact congrArg Host.Outcome.next (State.transact_unnamed_done ha ⟨nofun, nofun, nofun, nofun⟩ answer rfl)

/-- Settles O52: by the queue, empty or with a head entry, whose source then hears one record. -/
theorem acceptAttnTakesTheHead : Obligations.AcceptAttnTakesTheHead := by
  intro s p ha
  refine ⟨fun hq => ?_, fun source vector argument rest hq => ?_⟩
  · have answer : acceptAttnAnswer p s = refuse s .empty := by simp only [acceptAttnAnswer, hq]
    exact congrArg Host.Outcome.next (State.transact_refused ha nofun answer nofun)
  · have answer : acceptAttnAnswer p s =
        { state := ({ s with attention :=
            (s.attention.setQueue p rest).setPair source p .taken } : State).tell
              (fun q => if q = source then [.attnTaken p vector] else [])
          outcome := .done
          fields := [byteOf source.toNat, byteOf vector] ++ bigEndian argument } := by
      simp only [acceptAttnAnswer, hq, State.appendEvent_eq_tell]
      rfl
    exact congrArg Host.Outcome.next (State.transact_unnamed_done ha ⟨nofun, nofun, nofun, nofun⟩ answer rfl)

/-- Settles O53: by the target, and then by the state of the pair. -/
theorem withdrawAttnEndsTheRequest : Obligations.WithdrawAttnEndsTheRequest := by
  intro s p target ha
  have refused {u : State} {o : OutcomeCode} (ho : withdrawAttnAnswer p target s = refuse u o) (hd : o ≠ .done)
      (hu : u.ports = s.ports) :
      exec (.withdrawAttn p target) s = .next (u.replied p .withdrawAttn o none none []) :=
    congrArg Host.Outcome.next (State.transact_refused_with ha nofun ho hd (by rw [State.port_congr hu]))
  refine ⟨fun h => refused (withdrawAttnAnswer_badArgument h) nofun rfl, fun t ht hne =>
    ⟨fun hpair => ?_, fun hpair => ?_, fun hpair => ?_⟩⟩
  · exact congrArg Host.Outcome.next (State.transact_unnamed_done ha ⟨nofun, nofun, nofun, nofun⟩
      (withdrawAttnAnswer_pending ht hne hpair) rfl)
  · exact refused (withdrawAttnAnswer_taken ht hne hpair) nofun rfl
  · exact refused (withdrawAttnAnswer_none ht hne hpair) nofun rfl

end AttentionRequests

/-! ### Proposals -/

namespace Sys2Proof.Machine

section Proposals

variable {s : State} {p : Port} {pr : Proposal} {q : PerPort Quota} {id choice : Byte}

/-! #### Quotas and votes -/

theorem quotasInRange_iff : quotasInRange q = true ↔
    ∀ v, (q.get v).blocks ≤ 512 ∧ (q.get v).descriptors ≤ 256 ∧ (q.get v).conduits ≤ 24 := by
  simp only [quotasInRange, List.all_eq_true, Port.mem_all, true_imp_iff, decide_eq_true_iff]
  rfl

theorem quotaSumsFit_iff : quotaSumsFit q = true ↔
    (q.map Quota.blocks).sum ≤ 512 ∧ (q.map Quota.descriptors).sum ≤ 256 ∧ (q.map Quota.conduits).sum ≤ 24 :=
  decide_eq_true_iff

theorem State.usageWithin_iff {v : Port} : s.usageWithin q v = true ↔
    s.pool.chargedBlocks.get v ≤ (q.get v).blocks ∧ s.pool.chargedDescriptors.get v ≤ (q.get v).descriptors ∧
      s.chargedConduits v ≤ (q.get v).conduits := decide_eq_true_iff

theorem State.usageWithin_eq_false {v : Port} : s.usageWithin q v = false ↔
    (q.get v).blocks < s.pool.chargedBlocks.get v ∨ (q.get v).descriptors < s.pool.chargedDescriptors.get v ∨
      (q.get v).conduits < s.chargedConduits v := by
  rw [← Bool.not_eq_true, State.usageWithin_iff]
  omega

theorem Proposal.undecided_iff : pr.undecided = true ↔ ∃ v, pr.votes.get v = .pending := by
  simp [Proposal.undecided]

/-- An id is never 0 (R119). -/
theorem nextProposalId_ne_zero (id : Byte) : nextProposalId id ≠ 0 := by
  unfold nextProposalId
  split
  · decide
  · rename_i h; bv_omega

/-- The first port that passes a test is the lowest-numbered one. -/
theorem Port.find?_all_of_lowest {f : Port → Bool} (hp : f p = true)
    (hlower : ∀ v : Port, v.toNat < p.toNat → f v = false) : Port.all.find? f = some p := by
  have first : ∀ before after, Port.all = before ++ p :: after → (∀ v ∈ before, v.toNat < p.toNat) →
      Port.all.find? f = some p := fun before after he hb =>
    List.find?_eq_some_iff_append.2 ⟨hp, before, after, he, fun v hv => by rw [hlower v (hb v hv)]; rfl⟩
  cases p with
  | p0 => exact first [] _ rfl (by decide)
  | p1 => exact first [.p0] _ rfl (by decide)
  | p2 => exact first [.p0, .p1] _ rfl (by decide)
  | p3 => exact first [.p0, .p1, .p2] _ rfl (by decide)

/-! #### Adoption -/

/-- A proposal whose quotas cover every port's charges is adopted (R120, R121). -/
theorem State.adoptProposal_of_fits (h : ∀ v, s.usageWithin pr.quotas v = true) : s.adoptProposal pr =
    { s with
      partition := { s.partition with
        quotas := pr.quotas
        generation := s.partition.generation + 1
        proposal := none }
      events := s.heard (fun v =>
        if pr.votes.get v ≠ .none then [.partitionResolved pr.id .adopted (s.partition.generation + 1)] else []) } := by
  have hnone : Port.all.find? (fun v => !s.usageWithin pr.quotas v) = none :=
    List.find?_eq_none.2 (fun v _ => by simp [h v])
  simp only [State.adoptProposal, hnone, State.resolveProposal_eq]
  rfl

/-- A proposal whose quotas do not cover the charges of a port fails at the lowest-numbered such port (R120, R121). -/
theorem State.adoptProposal_of_short {short : Port} (hshort : s.usageWithin pr.quotas short = false)
    (hlower : ∀ v : Port, v.toNat < short.toNat → s.usageWithin pr.quotas v = true) :
    s.adoptProposal pr = s.resolveProposal pr (.failedUsage short) := by
  have hfind : Port.all.find? (fun v => !s.usageWithin pr.quotas v) = some short :=
    Port.find?_all_of_lowest (by rw [hshort]; rfl) (fun v hv => by rw [hlower v hv]; rfl)
  simp only [State.adoptProposal, hfind]

/-! #### PROPOSE -/

/-- The proposal that an accepted PROPOSE makes (R123). -/
def State.newProposal (s : State) (p : Port) (q : PerPort Quota) : Proposal :=
  { id := nextProposalId s.partition.idCounter
    proposer := p
    quotas := q
    votes := s.firstVotes p
    deadline := s.deadlineAfter Config.proposalLimit }

theorem State.firstVotes_get (v : Port) : (s.firstVotes p).get v =
    if v = p then .accept else if s.Attached v then .pending else .none := PerPort.get_ofFn _ v

theorem State.firstVotes_eq_pending {v : Port} : (s.firstVotes p).get v = .pending ↔ v ≠ p ∧ s.Attached v := by
  rw [State.firstVotes_get]
  split
  · rename_i hv; exact iff_of_false nofun (fun h => h.1 hv)
  · rename_i hv
    split
    · rename_i ha; exact iff_of_true rfl ⟨hv, ha⟩
    · rename_i ha; exact iff_of_false nofun (fun h => ha h.2)

theorem State.firstVotes_ne_none {v : Port} : (s.firstVotes p).get v ≠ .none ↔ v = p ∨ s.Attached v := by
  rw [State.firstVotes_get]
  split
  · rename_i hv; exact iff_of_true nofun (.inl hv)
  · rename_i hv
    split
    · rename_i ha; exact iff_of_true nofun (.inr ha)
    · rename_i ha; exact iff_of_false (fun h => h rfl) (not_or.2 ⟨hv, ha⟩)

theorem State.newProposal_undecided : (s.newProposal p q).undecided = true ↔ ∃ v, v ≠ p ∧ s.Attached v :=
  Proposal.undecided_iff.trans (exists_congr fun _ => State.firstVotes_eq_pending)

/-- The state in which a new proposal is pending and its other voters have heard of it (R123). -/
def State.proposed (s : State) (p : Port) (q : PerPort Quota) : State :=
  ({ s with partition := { s.partition with
      proposal := some (s.newProposal p q)
      idCounter := nextProposalId s.partition.idCounter } } : State).tell (fun v =>
    if v ≠ p ∧ s.Attached v then [.partitionProposed (nextProposalId s.partition.idCounter) p] else [])

/-- A new proposal waits for its other voters, or goes to the adoption check where there are none (R123). -/
theorem State.makeProposal_eq (s : State) (p : Port) (q : PerPort Quota) : s.makeProposal p q =
    if (s.newProposal p q).undecided then s.proposed p q
    else (s.proposed p q).adoptProposal (s.newProposal p q) := by
  have hvoters : ∀ v, v ∈ (s.newProposal p q).voters.filter (fun v => v != p) ↔ v ≠ p ∧ s.Attached v := fun v => by
    have hvote : (s.newProposal p q).votes.get v ≠ .none ↔ v = p ∨ s.Attached v := State.firstVotes_ne_none
    simp only [Proposal.voters, List.mem_filter, Port.mem_all, true_and, bne_iff_ne, hvote]
    tauto
  have hnodup : ((s.newProposal p q).voters.filter (fun v => v != p)).Nodup := (Port.nodup_filter _).filter _
  have htold := State.appendEvents_of_nodup ({ s with partition := { s.partition with
      proposal := some (s.newProposal p q)
      idCounter := nextProposalId s.partition.idCounter } } : State)
    (.partitionProposed (nextProposalId s.partition.idCounter) p) hnodup
  simp only [hvoters] at htold
  simp only [State.proposed, ← htold]
  rfl

theorem State.makeProposal_of_voter (h : ∃ v, v ≠ p ∧ s.Attached v) : s.makeProposal p q =
    { s with
      partition := { s.partition with
        proposal := some (s.newProposal p q)
        idCounter := nextProposalId s.partition.idCounter }
      events := s.heard (fun v =>
        if v ≠ p ∧ s.Attached v then [.partitionProposed (nextProposalId s.partition.idCounter) p] else []) } := by
  rw [State.makeProposal_eq]
  exact if_pos (State.newProposal_undecided.2 h)

/-- A proposal without another voter is adopted at once, and only its proposer hears of it (R121, R123). -/
theorem State.makeProposal_of_alone (h : ∀ v, v ≠ p → ¬ s.Attached v) (hu : ∀ v, s.usageWithin q v = true) :
    s.makeProposal p q =
      { s with
        partition :=
          { quotas := q
            generation := s.partition.generation + 1
            proposal := none
            idCounter := nextProposalId s.partition.idCounter }
        events := s.heard (fun v =>
          if v = p then
            [.partitionResolved (nextProposalId s.partition.idCounter) .adopted (s.partition.generation + 1)]
          else []) } := by
  have hdecided : (s.newProposal p q).undecided ≠ true := fun hd => by
    obtain ⟨v, hv, ha⟩ := State.newProposal_undecided.1 hd
    exact h v hv ha
  have hnobody : ∀ v, ¬ (v ≠ p ∧ s.Attached v) := fun v hv => h v hv.1 hv.2
  have hvoters : ∀ v, (s.newProposal p q).votes.get v ≠ .none ↔ v = p := fun v =>
    State.firstVotes_ne_none.trans (or_iff_left_of_imp fun ha => by_contra fun hv => h v hv ha)
  rw [State.makeProposal_eq]
  simp only [if_neg hdecided, State.proposed, if_neg (hnobody _), State.tell_nil]
  rw [State.adoptProposal_of_fits hu]
  simp only [hvoters]
  rfl

/-- PROPOSE while a proposal is pending (R122). -/
theorem proposeAnswer_busy {quotas : PerPort QuotaArgument} (h : s.partition.proposal ≠ none) :
    proposeAnswer p quotas s = refuse s .busy := if_pos (Option.isSome_iff_ne_none.2 h)

/-- PROPOSE with no proposal pending (R122). -/
theorem proposeAnswer_of_idle {quotas : PerPort QuotaArgument} (h : s.partition.proposal = none) :
    proposeAnswer p quotas s =
      if quotasInRange (quotas.map quotaOf) = true ∧ quotaSumsFit (quotas.map quotaOf) = true then
        if Port.all.all (fun v => s.usageWithin (quotas.map quotaOf) v) = true then
          { state := s.makeProposal p (quotas.map quotaOf)
            outcome := .done
            fields := [nextProposalId s.partition.idCounter] }
        else refuse s .belowUsage
      else refuse s .badArgument := by
  simp only [proposeAnswer, h]
  cases quotasInRange (quotas.map quotaOf) with
  | false => rfl
  | true =>
    cases quotaSumsFit (quotas.map quotaOf) with
    | false => rfl
    | true => cases Port.all.all (fun v => s.usageWithin (quotas.map quotaOf) v) <;> rfl

/-! #### VOTE and CANCEL_PROPOSAL -/

/-- The proposal with the ACCEPT of one voter (R125). -/
def Proposal.accepted (pr : Proposal) (p : Port) : Proposal := { pr with votes := pr.votes.set p .accept }

theorem Proposal.accepted_eq_pending {v : Port} :
    (pr.accepted p).votes.get v = .pending ↔ v ≠ p ∧ pr.votes.get v = .pending := by
  rw [Proposal.accepted, PerPort.get_set]
  by_cases hv : v = p <;> simp [hv]

theorem Proposal.accepted_undecided :
    (pr.accepted p).undecided = true ↔ ∃ v, v ≠ p ∧ pr.votes.get v = .pending :=
  Proposal.undecided_iff.trans (exists_congr fun _ => Proposal.accepted_eq_pending)

/-- Whoever votes is a voter already (R118). -/
theorem Proposal.accepted_ne_none {v : Port} (hp : pr.votes.get p = .pending) :
    (pr.accepted p).votes.get v ≠ .none ↔ pr.votes.get v ≠ .none := by
  rw [Proposal.accepted, PerPort.get_set]
  by_cases hv : v = p <;> simp [hv, hp]

/-- The state with an ACCEPT recorded (R125). -/
def State.recordVote (s : State) (pr : Proposal) (p : Port) : State :=
  { s with partition := { s.partition with proposal := some (pr.accepted p) } }

theorem voteAnswer_noProposal (h : s.partition.proposal = none) :
    voteAnswer p id choice s = refuse s .noProposal := by simp only [voteAnswer, h]

/-- VOTE with a proposal pending (R125, R126). -/
theorem voteAnswer_of_pending (h : s.partition.proposal = some pr) : voteAnswer p id choice s =
    if id ≠ pr.id then refuse s .stale
    else if pr.votes.get p ≠ .pending then refuse s .wrongState
    else if choice = 0x01 then
      { state :=
          if (pr.accepted p).undecided then s.recordVote pr p else (s.recordVote pr p).adoptProposal (pr.accepted p)
        outcome := .done }
    else if choice = 0x02 then { state := s.resolveProposal pr (.rejected p), outcome := .done }
    else refuse s .badArgument := by
  simp only [voteAnswer, h, voteChoiceOf?]
  by_cases h1 : choice = 0x01
  · simp only [h1, if_true]; rfl
  · by_cases h2 : choice = 0x02
    · simp only [h2, if_true]; rfl
    · simp only [h1, h2, if_false]

/-- The last vote is an ACCEPT, and the proposal's quotas cover every port's charges (R120, R125). -/
theorem State.recordVote_adopted (hp : pr.votes.get p = .pending) (hu : ∀ v, s.usageWithin pr.quotas v = true) :
    (s.recordVote pr p).adoptProposal (pr.accepted p) =
      { s with
        partition := { s.partition with
          quotas := pr.quotas
          generation := s.partition.generation + 1
          proposal := none }
        events := s.heard (fun v =>
          if pr.votes.get v ≠ .none then
            [.partitionResolved pr.id .adopted (s.partition.generation + 1)]
          else []) } := by
  have hfits : ∀ v, (s.recordVote pr p).usageWithin (pr.accepted p).quotas v = true := hu
  rw [State.adoptProposal_of_fits hfits]
  simp only [Proposal.accepted_ne_none hp]
  rfl

/-- The last vote is an ACCEPT, and the proposal's quotas do not cover the charges of a port (R120, R125). -/
theorem State.recordVote_short {short : Port} (hp : pr.votes.get p = .pending)
    (hshort : s.usageWithin pr.quotas short = false)
    (hlower : ∀ v : Port, v.toNat < short.toNat → s.usageWithin pr.quotas v = true) :
    (s.recordVote pr p).adoptProposal (pr.accepted p) = s.resolveProposal pr (.failedUsage short) := by
  have hfirst : (s.recordVote pr p).usageWithin (pr.accepted p).quotas short = false := hshort
  rw [State.adoptProposal_of_short hfirst hlower, State.resolveProposal_eq, State.resolveProposal_eq]
  simp only [Proposal.accepted_ne_none hp]
  rfl

theorem cancelProposalAnswer_noProposal (h : s.partition.proposal = none) :
    cancelProposalAnswer p id s = refuse s .noProposal := by simp only [cancelProposalAnswer, h]

/-- CANCEL_PROPOSAL with a proposal pending (R128). -/
theorem cancelProposalAnswer_of_pending (h : s.partition.proposal = some pr) : cancelProposalAnswer p id s =
    if id ≠ pr.id then refuse s .stale
    else if pr.proposer ≠ p then refuse s .wrongState
    else { state := s.resolveProposal pr (.withdrawn p), outcome := .done } := by
  simp only [cancelProposalAnswer, h]

end Proposals

end Sys2Proof.Machine

section ProposeVoteAndCancel

open Sys2Proof Sys2Proof.Machine

/-- Settles O54: each check of PROPOSE refuses in its turn, and behind them the proposal waits for its other voters, or
is adopted where there are none. -/
theorem proposeOpensTheVote : Obligations.ProposeOpensTheVote := by
  refine ⟨fun s p quotas ha => ?_, fun s p quotas q id ha hidle hq hid hrange hblocks hdescriptors hconduits husage =>
    ?_⟩
  · have refused {o : OutcomeCode} (ho : proposeAnswer p quotas s = refuse s o) (hd : o ≠ .done) :
        exec (.propose p quotas) s = .next (s.replied p .propose o none none []) :=
      congrArg Host.Outcome.next (State.transact_refused ha nofun ho hd)
    have hrange_iff : quotasInRange (quotas.map quotaOf) = true ↔ ∀ v, (quotas.get v).blocks.toNat ≤ 512 ∧
        (quotas.get v).descriptors.toNat ≤ 256 ∧ (quotas.get v).conduits.toNat ≤ 24 := by
      simp only [quotasInRange_iff, PerPort.get_map]
      rfl
    refine ⟨fun h => refused (proposeAnswer_busy h) nofun, fun hidle => ⟨fun hbad => ?_,
      fun hrange hblocks hdescriptors hconduits hbelow => ?_⟩⟩
    all_goals have answer := proposeAnswer_of_idle (p := p) (quotas := quotas) hidle
    · refine refused (answer.trans (if_neg ?_)) nofun
      rw [hrange_iff, quotaSumsFit_iff]
      rintro ⟨hr, hb, hd, hc⟩
      obtain ⟨v, hv⟩ | hb' | hd' | hc' := hbad
      · have := hr v
        omega
      · exact Nat.not_le.2 hb' hb
      · exact Nat.not_le.2 hd' hd
      · exact Nat.not_le.2 hc' hc
    · obtain ⟨v, hv⟩ := hbelow
      have hu : s.usageWithin (quotas.map quotaOf) v = false :=
        State.usageWithin_eq_false.2 (by rw [PerPort.get_map]; exact hv)
      rw [if_pos ⟨hrange_iff.2 hrange, quotaSumsFit_iff.2 ⟨hblocks, hdescriptors, hconduits⟩⟩,
        if_neg (fun hall => by simp [List.all_eq_true.1 hall v (Port.mem_all v)] at hu)] at answer
      exact refused answer nofun
  · have hquotas : q = quotas.map quotaOf := hq
    have hnext : id = nextProposalId s.partition.idCounter := hid
    clear hq hid
    subst hquotas hnext
    have hu : ∀ v, s.usageWithin (quotas.map quotaOf) v = true := fun v => State.usageWithin_iff.2 (husage v)
    have answer := proposeAnswer_of_idle (p := p) (quotas := quotas) hidle
    rw [if_pos ⟨quotasInRange_iff.2 hrange, quotaSumsFit_iff.2 ⟨hblocks, hdescriptors, hconduits⟩⟩,
      if_pos (List.all_eq_true.2 fun v _ => hu v)] at answer
    refine ⟨fun h => ?_, fun h => ?_⟩
    · rw [State.makeProposal_of_voter h] at answer
      exact congrArg Host.Outcome.next (State.transact_unnamed_done ha ⟨nofun, nofun, nofun, nofun⟩ answer rfl)
    · rw [State.makeProposal_of_alone h hu] at answer
      exact congrArg Host.Outcome.next (State.transact_unnamed_done ha ⟨nofun, nofun, nofun, nofun⟩ answer rfl)

/-- Settles O55: by the checks of R125 in their order, then by whether another vote is outstanding, then by the
adoption check. -/
theorem voteAcceptsTheProposal : Obligations.VoteAcceptsTheProposal := by
  intro s p id choice ha
  have refused {o : OutcomeCode} (ho : voteAnswer p id choice s = refuse s o) (hd : o ≠ .done) :
      exec (.vote p id choice) s = .next (s.replied p .vote o none none []) :=
    congrArg Host.Outcome.next (State.transact_refused ha nofun ho hd)
  have accepted {u : State} (ho : voteAnswer p id choice s = { state := u, outcome := .done })
      (hu : u.ports = s.ports) : exec (.vote p id choice) s = .next (u.replied p .vote .done none none []) :=
    congrArg Host.Outcome.next (State.transact_unnamed_done ha ⟨nofun, nofun, nofun, nofun⟩ ho hu)
  refine ⟨fun h => refused (voteAnswer_noProposal h) nofun, fun pr hpr => ?_⟩
  have answer := voteAnswer_of_pending (p := p) (id := id) (choice := choice) hpr
  refine ⟨fun hid => refused (answer.trans (if_pos hid)) nofun, fun hid hvote => ?_,
    fun hid hvote h1 h2 => ?_, fun hid hvote h1 => ?_⟩
  all_goals rw [if_neg (not_not.2 hid)] at answer
  · exact refused (answer.trans (if_pos hvote)) nofun
  · rw [if_neg (not_not.2 hvote), if_neg h1, if_neg h2] at answer
    exact refused answer nofun
  · subst hid
    rw [if_neg (not_not.2 hvote), if_pos h1] at answer
    refine ⟨fun hopen => ?_, fun hlast => ?_⟩
    · rw [if_pos (Proposal.accepted_undecided.2 hopen)] at answer
      exact accepted answer rfl
    · have hdecided : (pr.accepted p).undecided ≠ true := fun hd => by
        obtain ⟨v, hv, hp⟩ := Proposal.accepted_undecided.1 hd
        exact hlast v hv hp
      rw [if_neg hdecided] at answer
      refine ⟨fun hfits => ?_, fun short hshort hlower => ?_⟩
      · rw [State.recordVote_adopted hvote hfits] at answer
        exact accepted answer rfl
      · rw [State.recordVote_short hvote hshort hlower, State.resolveProposal_eq] at answer
        exact accepted answer rfl

/-- Settles O56: every check of R125 passes, and the choice is REJECT. -/
theorem oneRejectEndsTheProposal : Obligations.OneRejectEndsTheProposal := by
  rintro s p - pr ha hpr rfl hvote
  have answer : voteAnswer p pr.id 0x02 s = { state := s.resolveProposal pr (.rejected p), outcome := .done } := by
    rw [voteAnswer_of_pending hpr, if_neg (not_not.2 rfl), if_neg (not_not.2 hvote), if_neg (by decide), if_pos rfl]
  rw [State.resolveProposal_eq] at answer
  exact congrArg Host.Outcome.next (State.transact_unnamed_done ha ⟨nofun, nofun, nofun, nofun⟩ answer rfl)

/-- Settles O57: the port state, and then the checks of R128 in their order. -/
theorem cancelProposalWithdrawsIt : Obligations.CancelProposalWithdrawsIt := by
  intro s p id
  refine ⟨fun ha => exec_of_frame_refused (i := .cancelProposal p id) rfl ha rfl nofun, fun ha => ?_⟩
  have refused {o : OutcomeCode} (ho : cancelProposalAnswer p id s = refuse s o) (hd : o ≠ .done) :
      exec (.cancelProposal p id) s = .next (s.replied p .cancelProposal o none none []) :=
    congrArg Host.Outcome.next (State.transact_refused ha nofun ho hd)
  refine ⟨fun h => refused (cancelProposalAnswer_noProposal h) nofun, fun pr hpr => ?_⟩
  have answer := cancelProposalAnswer_of_pending (p := p) (id := id) hpr
  refine ⟨fun hid => refused (answer.trans (if_pos hid)) nofun, fun hid hproposer => ?_, fun hid hproposer => ?_⟩
  all_goals rw [if_neg (not_not.2 hid)] at answer
  · exact refused (answer.trans (if_pos hproposer)) nofun
  · subst hid
    rw [if_neg (not_not.2 hproposer), State.resolveProposal_eq] at answer
    exact congrArg Host.Outcome.next (State.transact_unnamed_done ha ⟨nofun, nofun, nofun, nofun⟩ answer rfl)

end ProposeVoteAndCancel

/-! ### The Partition Unit behind the other units -/

namespace Sys2Proof.Machine

section PartitionAside

variable (s : State) (p : Port)

/-! #### Proposals and expiries -/

theorem State.resolveProposal_partition (pr : Proposal) (r : ProposalResult) :
    (s.resolveProposal pr r).partition = { s.partition with proposal := none } := by rw [State.resolveProposal_eq]

theorem State.abandonProposal_partition :
    (s.abandonProposal p).partition = { s.partition with proposal := none } := by rw [State.abandonProposal_eq]; rfl

/-- An expiry discards the proposal or leaves the Partition Unit alone (R124). -/
theorem State.takeExpiry_partition (x : Expiry) : (s.takeExpiry x).partition = s.partition ∨
    (s.takeExpiry x).partition = { s.partition with proposal := none } := by
  cases x with
  | offer n => exact .inl (s.lapseOffer_surroundings n).partition
  | hold n p q => exact .inl (s.lapseHold_surroundings n p q).partition
  | proposal =>
    change s.lapseProposal.partition = _ ∨ s.lapseProposal.partition = _
    unfold State.lapseProposal
    split
    · exact .inl rfl
    · split
      · exact .inr (s.resolveProposal_partition _ _)
      · exact .inl rfl

/-! #### Answers of the other units -/

theorem nextEventAnswer_partition : (nextEventAnswer p s).state.partition = s.partition := by
  unfold nextEventAnswer
  split <;> rfl

theorem takeAnyAnswer_partition : (takeAnyAnswer p s).state.partition = s.partition := by
  obtain he | ⟨n, u, hs, he⟩ := takeAnyAnswer_cases p s
  · rw [he]
  · rw [he]; exact hs.partition

theorem attendAnswer_partition (target vector : Byte) (argument : Half) :
    (attendAnswer p target vector argument s).state.partition = s.partition := by
  unfold attendAnswer
  split
  · rfl
  · split
    · rfl
    · split
      · rfl
      · split <;> rfl

theorem acceptAttnAnswer_partition : (acceptAttnAnswer p s).state.partition = s.partition := by
  unfold acceptAttnAnswer
  split
  · rfl
  · exact (State.appendEvent_surroundings _ _ _).partition

theorem withdrawAttnAnswer_partition (target : Byte) :
    (withdrawAttnAnswer p target s).state.partition = s.partition := by
  unfold withdrawAttnAnswer
  split
  · rfl
  · split
    · rfl
    · split <;> rfl

/-! #### Transactions -/

theorem State.accept_partition (c : Command) (named : Option ConduitNo) (x : Transaction) (a : Answer) :
    (State.accept p c named x a).partition = a.state.partition := by
  unfold State.accept State.enterReply State.writeOutcome
  split <;> rfl

theorem State.receivePayload_partition (bytes : List Byte) : (s.receivePayload p bytes).partition = s.partition :=
  Received.partition (.inr ⟨p, bytes, rfl⟩)

theorem State.endTransfer_partition : (s.endTransfer p).partition = s.partition := by
  unfold State.endTransfer
  split
  · rfl
  · exact (s.claim_surroundings .transferEnd _).partition

theorem State.completeFill_partition (h : Handle) (count : Nat) :
    (s.completeFill p h count).partition = s.partition := by
  unfold State.completeFill
  split
  · rfl
  · split
    · exact (s.freeDescriptor_surroundings h).partition
    · split
      · exact (s.freeDescriptor_surroundings h).partition
      · exact (s.deliver_surroundings h _ _ _ _).partition

theorem State.releaseSelect_partition : (s.releaseSelect p).partition = s.partition := by
  unfold State.releaseSelect
  split
  · rfl
  · split
    · rfl
    · rfl
    · exact s.endTransfer_partition p
    · split
      · rfl
      · exact s.completeFill_partition p _ _

theorem State.abort_partition : (s.abort p).partition = s.partition := by
  unfold State.abort
  split
  · exact (s.freeDescriptor_surroundings _).partition
  · exact s.endTransfer_partition p

theorem State.refuseCode_partition (code : Byte) : (s.refuseCode p code).partition = s.partition := by
  unfold State.refuseCode
  split
  · split
    · rfl
    · rfl
    · exact s.receivePayload_partition p _
    · rfl
  · rfl

theorem State.refuseTruncated_partition (code : Byte) (args : List Byte) :
    (s.refuseTruncated p code args).partition = s.partition := by
  unfold State.refuseTruncated
  split
  · split <;> rfl
  · rfl

/-! #### Joining and departing -/

/-- A port that joins abandons the proposal (R129). -/
theorem State.attach_partition : (s.attach p).partition = { s.partition with proposal := none } := by
  rw [State.attach_eq]; rfl

/-- A departure abandons the proposal (R129). -/
theorem State.depart_partition (cause : DepartureCause) (left : PortState) :
    (s.depart p cause left).partition = { s.partition with proposal := none } := by
  unfold State.depart
  simp only
  rw [(State.appendEvents_surroundings _ _ _).partition,
    show ∀ u : State, (u.clearEvents p).partition = u.partition from fun _ => rfl, State.abandonProposal_partition,
    State.departAttention_eq, State.tell_partition, (State.departConduits_surroundings _ p).partition]
  rfl

end PartitionAside

end Sys2Proof.Machine

/-! ### What a row does to the Partition Unit

A row leaves the Partition Unit as it is, discards the pending proposal, or is one of PROPOSE, VOTE and the global
reset. While a proposal is pending no port joins the exchange or leaves it. -/

namespace Sys2Proof.Machine

section PartitionRows

variable {s t u : State} {p : Port} {i : Instr}

/-- The Partition Unit that a row leaves (R120, R121, R123, R125, R132). -/
inductive PartitionChange (i : Instr) (s : State) : Partition → Prop where
  | settles {pa : Partition} (h : pa = s.partition ∨ pa = { s.partition with proposal := none }) :
      PartitionChange i s pa
  | opens {p : Port} {q : PerPort Quota} (hq : quotaSumsFit q = true) (hp : s.Attached p)
      (hv : ∃ v, v ≠ p ∧ s.Attached v) :
      PartitionChange i s { s.partition with
        proposal := some (s.newProposal p q)
        idCounter := nextProposalId s.partition.idCounter }
  | votes {p : Port} {pr : Proposal} (hpr : s.partition.proposal = some pr) (hp : pr.votes.get p = .pending)
      (hv : ∃ v, v ≠ p ∧ pr.votes.get v = .pending) :
      PartitionChange i s { s.partition with proposal := some (pr.accepted p) }
  | adoptsProposed {p : Port} {q : PerPort QuotaArgument} (hi : i = .propose p q)
      (hq : quotaSumsFit (q.map quotaOf) = true) :
      PartitionChange i s
        { quotas := q.map quotaOf
          generation := s.partition.generation + 1
          proposal := none
          idCounter := nextProposalId s.partition.idCounter }
  | adoptsVoted {p : Port} {id choice : Byte} {pr : Proposal} (hi : i = .vote p id choice)
      (hpr : s.partition.proposal = some pr) :
      PartitionChange i s { s.partition with
        quotas := pr.quotas
        generation := s.partition.generation + 1
        proposal := none }
  | powerOn (hi : i = .globalResetAsserted) : PartitionChange i s Partition.initial

/-! #### The law of the Partition Unit -/

/-- The law reads the Partition Unit, and who is ATTACHED only while a proposal is pending. -/
theorem PartitionLaw.settles (h : PartitionLaw s)
    (hpa : t.partition = s.partition ∨ t.partition = { s.partition with proposal := none })
    (hat : t.partition.proposal = none ∨ ∀ q, t.Attached q ↔ s.Attached q) : PartitionLaw t where
  activeSums := by obtain e | e := hpa <;> rw [e] <;> exact h.activeSums
  proposal pr hpr := by
    obtain e | e := hpa
    · rw [e] at hpr
      obtain ⟨hsums, hid, hne, haccept, hopen, hvoters⟩ := h.proposal pr hpr
      refine ⟨hsums, by rw [e]; exact hid, hne, haccept, hopen, fun v => ?_⟩
      obtain hnone | hat := hat
      · rw [e, hpr] at hnone; cases hnone
      · exact (hvoters v).trans (hat v).symm
    · rw [e] at hpr; cases hpr

/-- Every change of the Partition Unit keeps its law, while no port joins or leaves as a proposal is pending. -/
theorem PartitionLaw.changes (h : PartitionLaw s) {pa : Partition} (hc : PartitionChange i s pa)
    (ht : t.partition = pa) (hat : t.partition.proposal = none ∨ ∀ q, t.Attached q ↔ s.Attached q) :
    PartitionLaw t := by
  have voters : pa.proposal ≠ none → ∀ q, t.Attached q ↔ s.Attached q := fun hne =>
    hat.resolve_left (by rw [ht]; exact hne)
  cases hc with
  | settles hpa => exact h.settles (by rw [ht]; exact hpa) hat
  | @opens p q hq hp hv =>
    refine ⟨by rw [ht]; exact h.activeSums, fun pr hpr => ?_⟩
    rw [ht] at hpr ⊢
    cases hpr
    refine ⟨quotaSumsFit_iff.1 hq, rfl, nextProposalId_ne_zero _, (State.firstVotes_get _).trans (if_pos rfl),
      Proposal.undecided_iff.1 (State.newProposal_undecided.2 hv), fun v => ?_⟩
    rw [voters nofun v]
    exact State.firstVotes_ne_none.trans (or_iff_right_of_imp fun e => e ▸ hp)
  | @votes p pr hpr hp hv =>
    obtain ⟨hsums, hid, hne, haccept, -, hvoters⟩ := h.proposal pr hpr
    refine ⟨by rw [ht]; exact h.activeSums, fun pr' hpr' => ?_⟩
    rw [ht] at hpr' ⊢
    cases hpr'
    refine ⟨hsums, hid, hne, ?_, Proposal.undecided_iff.1 (Proposal.accepted_undecided.2 hv), fun v => ?_⟩
    · refine (PerPort.get_set _ _ _ _).trans ?_
      split
      · rfl
      · exact haccept
    · rw [Proposal.accepted_ne_none hp, voters nofun v]
      exact hvoters v
  | adoptsProposed _ hq => exact ⟨by rw [ht]; exact quotaSumsFit_iff.1 hq, fun pr hpr => by rw [ht] at hpr; cases hpr⟩
  | adoptsVoted _ hpr =>
    exact ⟨by rw [ht]; exact (h.proposal _ hpr).1, fun pr hpr' => by rw [ht] at hpr'; cases hpr'⟩
  | powerOn => exact ⟨by rw [ht]; exact reset_partitionLaw.activeSums, fun pr hpr => by rw [ht] at hpr; cases hpr⟩

/-! #### The three commands -/

theorem State.adoptProposal_partition (s : State) (pr : Proposal) :
    (s.adoptProposal pr).partition = { s.partition with proposal := none } ∨
    (s.adoptProposal pr).partition =
      { s.partition with quotas := pr.quotas, generation := s.partition.generation + 1, proposal := none } := by
  unfold State.adoptProposal
  split
  · exact .inl (s.resolveProposal_partition pr _)
  · exact .inr (State.resolveProposal_partition _ pr _)

theorem proposeAnswer_change (ha : s.Attached p) (quotas : PerPort QuotaArgument) :
    PartitionChange (.propose p quotas) s (proposeAnswer p quotas s).state.partition := by
  have refused : PartitionChange (.propose p quotas) s s.partition := .settles (.inl rfl)
  by_cases hidle : s.partition.proposal = none
  · rw [proposeAnswer_of_idle hidle]
    split
    · rename_i hargs
      split
      · rename_i husage
        have hu : ∀ v, s.usageWithin (quotas.map quotaOf) v = true := fun v =>
          List.all_eq_true.1 husage v (Port.mem_all v)
        by_cases hv : ∃ v, v ≠ p ∧ s.Attached v
        · rw [State.makeProposal_of_voter hv]
          exact .opens hargs.2 ha hv
        · rw [State.makeProposal_of_alone (fun v hne hat => hv ⟨v, hne, hat⟩) hu]
          exact .adoptsProposed rfl hargs.2
      · exact refused
    · exact refused
  · rw [proposeAnswer_busy hidle]
    exact refused

theorem voteAnswer_change (p : Port) (id choice : Byte) (s : State) :
    PartitionChange (.vote p id choice) s (voteAnswer p id choice s).state.partition := by
  have refused : PartitionChange (.vote p id choice) s s.partition := .settles (.inl rfl)
  cases hpr : s.partition.proposal with
  | none => rw [voteAnswer_noProposal hpr]; exact refused
  | some pr =>
    rw [voteAnswer_of_pending hpr]
    split
    · exact refused
    · split
      · exact refused
      · rename_i hp
        split
        · simp only
          split
          · rename_i hopen
            exact .votes hpr (not_not.1 hp) (Proposal.accepted_undecided.1 hopen)
          · obtain he | he := State.adoptProposal_partition (s.recordVote pr p) (pr.accepted p) <;> rw [he]
            · exact .settles (.inr rfl)
            · exact .adoptsVoted (pr := pr) rfl hpr
        · split
          · exact .settles (.inr (s.resolveProposal_partition pr _))
          · exact refused

theorem cancelProposalAnswer_partition (p : Port) (id : Byte) (s : State) :
    (cancelProposalAnswer p id s).state.partition = s.partition ∨
    (cancelProposalAnswer p id s).state.partition = { s.partition with proposal := none } := by
  cases hpr : s.partition.proposal with
  | none => rw [cancelProposalAnswer_noProposal hpr]; exact .inl rfl
  | some pr =>
    rw [cancelProposalAnswer_of_pending hpr]
    split
    · exact .inl rfl
    · split
      · exact .inl rfl
      · exact .inr (s.resolveProposal_partition pr _)

/-! #### Rows -/

/-- What a row does to the Partition Unit and, under the law of the port controllers, to its voters: where a proposal is
pending behind the row, no port has joined the exchange or left it (R129). -/
structure PartitionRow (i : Instr) (s t : State) : Prop where
  change : PartitionChange i s t.partition
  voters : PortLaw s → t.partition.proposal = none ∨ ∀ q, t.Attached q ↔ s.Attached q

theorem PartitionRow.still (hpa : t.partition = s.partition) (hat : PortLaw s → ∀ q, t.Attached q ↔ s.Attached q) :
    PartitionRow i s t := ⟨.settles (.inl hpa), fun hp => .inr (hat hp)⟩

theorem PartitionRow.discarded (hpa : t.partition = { s.partition with proposal := none }) : PartitionRow i s t :=
  ⟨.settles (.inr hpa), fun _ => .inl (by rw [hpa])⟩

theorem PartitionRow.refl (i : Instr) (s : State) : PartitionRow i s s := .still rfl (fun _ _ => .rfl)

/-- What follows leaves the Partition Unit alone, and every port ATTACHED or not as it was. -/
theorem PartitionRow.reports (h : PartitionRow i s t) (hpa : u.partition = t.partition) (hr : Reports t u) :
    PartitionRow i s u where
  change := hpa ▸ h.change
  voters hp := by
    rw [hpa]
    exact (h.voters hp).imp_right (fun hat q => (hr.attached q).trans (hat q))

theorem Reports.partitionRow (hr : Reports s t) (hpa : t.partition = s.partition) : PartitionRow i s t :=
  (PartitionRow.refl i s).reports hpa hr

/-- A port controller replaced, its port ATTACHED or not as before. -/
theorem PartitionRow.setPort (h : PartitionRow i s t) {c : PortController} (hc : c.state = .attached ↔ t.Attached p) :
    PartitionRow i s (t.setPort p c) := h.reports rfl ((Reports.refl t).setPort hc)

theorem SameSurroundings.partitionRow (hs : SameSurroundings s t) : PartitionRow i s t :=
  .still hs.partition (fun _ q => by rw [State.Attached, State.port_congr hs.ports])

/-- A command frame does to the Partition Unit what its owning block does, once the port's state admits the command. -/
theorem State.transact_partitionRow (c : Command) (args : List Byte) (named : Option ConduitNo)
    (owner : State → Answer) (ho : ∀ shown, s.shownState p = some shown → admission c shown = none →
      PartitionRow i s (owner s).state) : PartitionRow i s (s.transact p c args named owner) := by
  obtain he | ⟨bytes, he⟩ | ⟨x, shown, hshown, -, -, -, he⟩ := s.transact_cases p c args named owner
  · rw [he]; exact .refl i s
  · rw [he]; exact ((Reports.refl s).receivePayload p bytes).partitionRow (s.receivePayload_partition p bytes)
  · rw [he]
    refine PartitionRow.reports ?_ (State.accept_partition p c named x _) (State.accept_reports p c named x _)
    cases hadm : admission c shown with
    | some r => exact .refl i s
    | none => exact ho shown hshown hadm

/-- A port that leaves ATTACHED at its reset line departs, and abandons the proposal (R129, R140). -/
theorem execPortResetAsserted_partitionRow (hi : execPortResetAsserted p s = .next t) : PartitionRow i s t := by
  have sameAttached := (Reports.refl s).abort p
  have aborted : PartitionRow i s (s.abort p) := sameAttached.partitionRow (s.abort_partition p)
  simp only [execPortResetAsserted, Host.Outcome.next.injEq] at hi
  subst hi
  split
  · exact .discarded ((State.depart_partition _ p _ _).trans (by rw [s.abort_partition p]))
  · rename_i hst
    have hna : ¬ (s.abort p).Attached p := fun ha => by
      rw [sameAttached.attached, State.Attached, hst] at ha
      cases ha
    have held : PartitionRow i s ((s.abort p).enterHeld p) := aborted.setPort (iff_of_false nofun hna)
    exact held.setPort .rfl
  · split
    · have ended : PartitionRow i s (s.endTransaction p) := (PartitionRow.refl i s).setPort .rfl
      have reset : PartitionRow i s ((s.endTransaction p).resetOutcome p) := ended.setPort .rfl
      exact reset.setPort .rfl
    · exact (PartitionRow.refl i s).setPort .rfl

/-- A port whose line was asserted was HELD, and does not become ATTACHED (R142). -/
theorem execPortResetReleased_partitionRow (hi : execPortResetReleased p s = .next t) : PartitionRow i s t := by
  cases hline : (s.port p).resetAsserted with
  | false => cases hi.symm.trans (exec_portResetReleased_unasserted hline); exact .refl i s
  | true =>
    by_cases hrun : s.time.reset = .running
    · cases hi.symm.trans (exec_portResetReleased_operation hline hrun)
      refine .still rfl (fun hp => Reports.attached ((Reports.refl s).setPort (iff_of_false nofun ?_)))
      exact State.not_attached_of_held (hp.heldByReset p hline)
    · cases hi.symm.trans (exec_portResetReleased_before hline hrun)
      exact (PartitionRow.refl i s).setPort .rfl

theorem execSelectAsserted_partitionRow (hi : execSelectAsserted p s = .next t) : PartitionRow i s t := by
  simp only [execSelectAsserted, Host.Outcome.next.injEq] at hi
  subst hi
  split
  · exact .refl i s
  · have released : PartitionRow i s (s.releaseSelect p) :=
      ((Reports.refl s).releaseSelect p).partitionRow (s.releaseSelect_partition p)
    exact released.setPort .rfl

/-! #### Time -/

/-- No port is ATTACHED as operation begins, or behind it (R184). -/
theorem PortLaw.endStartUp_attached (hp : PortLaw s) (hr : s.time.reset = .startUp) (q : Port) :
    s.endStartUp.Attached q ↔ s.Attached q := by
  have hna := State.not_attached_of_held (hp.heldBeforeOperation (by rw [hr]; nofun) q)
  refine iff_of_false (fun ha => ?_) hna
  rw [State.Attached, show s.endStartUp.port q = _ from PerPort.get_map _ _ q] at ha
  split at ha
  · exact hna ha
  · cases ha

/-- As time passes the Partition Unit stays as it is, or its proposal is discarded (R124); and the law of the port
controllers is kept, which tells who is HELD as operation begins. -/
structure SettlesInTime (s t : State) : Prop where
  partition : t.partition = s.partition ∨ t.partition = { s.partition with proposal := none }
  ports : PortLaw s → PortLaw t
  voters : PortLaw s → t.partition.proposal = none ∨ ∀ q, t.Attached q ↔ s.Attached q

theorem SettlesInTime.still (hpa : t.partition = s.partition) (hports : PortLaw s → PortLaw t)
    (hat : PortLaw s → ∀ q, t.Attached q ↔ s.Attached q) : SettlesInTime s t :=
  ⟨.inl hpa, hports, fun hp => .inr (hat hp)⟩

theorem SettlesInTime.refl (s : State) : SettlesInTime s s := .still rfl id (fun _ _ => .rfl)

theorem SettlesInTime.trans (a : SettlesInTime s t) (b : SettlesInTime t u) : SettlesInTime s u where
  partition := by
    obtain e | e := b.partition
    · rw [e]; exact a.partition
    · right
      obtain e' | e' := a.partition <;> rw [e, e']
  ports hp := b.ports (a.ports hp)
  voters hp := by
    obtain hnone | hat := a.voters hp
    · left
      obtain e | e := b.partition <;> rw [e]
      exact hnone
    · exact (b.voters (a.ports hp)).imp_right (fun hat' q => (hat' q).trans (hat q))

theorem SettlesInTime.row (h : SettlesInTime s t) : PartitionRow i s t := ⟨.settles h.partition, h.voters⟩

theorem State.takeExpiry_settles (s : State) (x : Expiry) : SettlesInTime s (s.takeExpiry x) :=
  ⟨s.takeExpiry_partition x, fun hp => hp.takeExpiry x, fun _ => .inr (s.takeExpiry_reports x).attached⟩

theorem State.endStartUp_settles (hr : s.time.reset = .startUp) : SettlesInTime s s.endStartUp :=
  .still rfl (fun hp => hp.endStartUp hr) (fun hp => hp.endStartUp_attached hr)

theorem State.countAdvance_settles (s : State) : SettlesInTime s s.countAdvance := by
  unfold State.countAdvance
  split
  · exact .refl s
  · rename_i hr; exact State.endStartUp_settles hr
  · exact .still rfl (fun hp => hp.congr rfl rfl) (fun _ _ => .rfl)

/-- The count of free choices and the divider are nothing to the Partition Unit or the port controllers. -/
theorem State.blocks_settle (s : State) (choices divider : Nat) :
    SettlesInTime s { s with choices, time := { s.time with divider } } :=
  .still rfl (fun hp => hp.congr rfl rfl) (fun _ _ => .rfl)

theorem State.advance_settles (s : State) : SettlesInTime s s.advance :=
  s.advance_keeps (P := SettlesInTime s) (fun u x h => h.trans (u.takeExpiry_settles x))
    (fun u k h => h.trans (u.blocks_settle k u.time.divider)) (fun u h => h.trans u.countAdvance_settles) (.refl s)

theorem State.referencePeriod_settles (s : State) : SettlesInTime s s.referencePeriod :=
  s.referencePeriod_keeps (P := SettlesInTime s) (fun u x h => h.trans (u.takeExpiry_settles x))
    (fun u k h => h.trans (u.blocks_settle k u.time.divider)) (fun u h => h.trans u.countAdvance_settles)
    (fun u k h => h.trans (u.blocks_settle u.choices k)) (.refl s)

/-! #### All rows -/

/-- What every row does to the Partition Unit. -/
theorem exec_partitionRow (hi : exec i s = .next t) : PartitionRow i s t := by
  have admitted {p : Port} {c : Command} {args : List Byte} {named : Option ConduitNo} {owner : State → Answer}
      (ho : ∀ shown, s.shownState p = some shown → admission c shown = none → PartitionRow i s (owner s).state)
      (hi : Host.Outcome.next (s.transact p c args named owner) = (.next t : Host.Outcome State Fault Refusal)) :
      PartitionRow i s t := by
    cases hi
    exact State.transact_partitionRow c args named owner ho
  have command {p : Port} {c : Command} {args : List Byte} {named : Option ConduitNo} {owner : State → Answer}
      (ho : PartitionRow i s (owner s).state) :
      Host.Outcome.next (s.transact p c args named owner) = (.next t : Host.Outcome State Fault Refusal) →
      PartitionRow i s t := admitted (fun _ _ _ => ho)
  have around {p : Port} {c : Command} {args : List Byte} {named : Option ConduitNo} {owner : State → Answer}
      (ho : SameSurroundings s (owner s).state) :
      Host.Outcome.next (s.transact p c args named owner) = (.next t : Host.Outcome State Fault Refusal) →
      PartitionRow i s t := command ho.partitionRow
  have left {u : State} (hu : PartitionRow i s u)
      (hi : Host.Outcome.next u = (.next t : Host.Outcome State Fault Refusal)) : PartitionRow i s t := by
    cases hi
    exact hu
  have nothing := PartitionRow.refl i s
  have same := Reports.refl s
  cases i with
  | status p => exact command nothing hi
  | attach p => exact command (.discarded (s.attach_partition p)) hi
  | detach p => exact command (.discarded (s.depart_partition p .detach .detached)) hi
  | nextEvent p =>
    refine command (.still (nextEventAnswer_partition s p) (fun _ q => ?_)) hi
    rw [State.Attached, State.port_congr (nextEventAnswer_quiet p s).ports]
  | offer p ms cl w sz hl => exact around (offerAnswer_surroundings p ms cl w sz hl s) hi
  | answer p c g ch wl sl => exact around (answerAnswer_surroundings p c g ch wl sl s) hi
  | close p c => exact around (closeAnswer_surroundings p c s) hi
  | leave p c => exact around (leaveAnswer_surroundings p c s) hi
  | flush p c => exact around (flushAnswer_surroundings p c s) hi
  | conduitInfo p c => exact command (by rw [State.conduitInfo_state]; exact nothing) hi
  | post p c len => exact around (postAnswer_surroundings p c len s) hi
  | take p c => exact around (takeAnswer_surroundings p c s) hi
  | takeAny p => exact command ((takeAnyAnswer_reports p s).partitionRow (takeAnyAnswer_partition s p)) hi
  | peek p c => exact around (peekAnswer_surroundings p c s) hi
  | readHeld p c q => exact around (readHeldAnswer_surroundings p c q s) hi
  | release p c q => exact around (releaseAnswer_surroundings p c q s) hi
  | attend p n v a => exact command ((attendAnswer_reports p s n v a).partitionRow (attendAnswer_partition s p n v a)) hi
  | acceptAttn p => exact command ((acceptAttnAnswer_reports p s).partitionRow (acceptAttnAnswer_partition s p)) hi
  | withdrawAttn p n =>
    exact command ((withdrawAttnAnswer_reports p s n).partitionRow (withdrawAttnAnswer_partition s p n)) hi
  | propose p q =>
    exact admitted (fun _ hs ha => ⟨proposeAnswer_change (attached_of_admission (by nofun) hs ha) q,
      fun _ => .inr (proposeAnswer_reports p s q).attached⟩) hi
  | vote p id ch =>
    exact command ⟨voteAnswer_change p id ch s, fun _ => .inr (voteAnswer_reports p s id ch).attached⟩ hi
  | cancelProposal p id =>
    exact command ⟨.settles (cancelProposalAnswer_partition p id s),
      fun _ => .inr (cancelProposalAnswer_reports p s id).attached⟩ hi
  | readPartition p => exact command nothing hi
  | poolInfo p => exact command nothing hi
  | segmentInfo p x => exact command nothing hi
  | badCommand p code =>
    simp only [exec, execBadCommand] at hi
    split at hi
    · exact left ((same.refuseCode p code).partitionRow (s.refuseCode_partition p code)) hi
    · cases hi
  | truncated p code args =>
    simp only [exec, execTruncated] at hi
    split at hi
    · split at hi
      · exact left ((same.refuseTruncated p code args).partitionRow (s.refuseTruncated_partition p code args)) hi
      · cases hi
    · cases hi
  | fillCompletion p bytes =>
    refine left ?_ hi
    split
    · exact ((same.receivePayload p bytes).releaseSelect p).partitionRow
        ((State.releaseSelect_partition _ p).trans (s.receivePayload_partition p bytes))
    · exact nothing
  | transferEnd p => exact left ((same.releaseSelect p).partitionRow (s.releaseSelect_partition p)) hi
  | portResetAsserted p => exact execPortResetAsserted_partitionRow hi
  | portResetReleased p => exact execPortResetReleased_partitionRow hi
  | globalResetAsserted => exact left ⟨.powerOn rfl, fun _ => .inl rfl⟩ hi
  | globalResetReleased =>
    refine left ?_ hi
    split
    · exact .still rfl (fun _ _ => .rfl)
    · exact nothing
  | intervalAdvance => exact left s.advance_settles.row hi
  | endOfStartUp =>
    refine left ?_ hi
    split
    · rename_i hr; exact (State.endStartUp_settles hr).row
    · exact nothing
  | offerLapse n => exact left (s.takeExpiry_settles (.offer n)).row hi
  | proposalLapse => exact left (s.takeExpiry_settles .proposal).row hi
  | holdLapse n p q => exact left (s.takeExpiry_settles (.hold n p q)).row hi
  | selectAsserted p => exact execSelectAsserted_partitionRow hi

end PartitionRows

end Sys2Proof.Machine

open Sys2Proof Sys2Proof.Machine in
/-- Settles O10: a row that leaves a proposal pending changes no voter's attachment, and what PROPOSE and VOTE make of
the proposal has the law. -/
theorem everyStepKeepsThePartitionLaw : Obligations.EveryStepKeepsThePartitionLaw := by
  intro s t hp h hstep
  obtain ⟨-, rfl⟩ | ⟨i, rest, -, hi⟩ := step_cases hstep
  · exact h.settles s.referencePeriod_settles.partition (s.referencePeriod_settles.voters hp)
  · have h' : PartitionLaw { s with pending := rest } := h.settles (.inl rfl) (.inr fun _ => .rfl)
    have row := exec_partitionRow hi
    exact h'.changes row.change rfl (row.voters hp.of_pending)

open Sys2Proof Sys2Proof.Machine in
/-- Settles O19: of the changes a row makes to the Partition Unit, only the two adoptions and power-on change the active
record. -/
theorem quotasChangeOnlyByAdoption : Obligations.QuotasChangeOnlyByAdoption := by
  intro i s t hi hne
  have change := (exec_partitionRow hi).change
  generalize t.partition = pa at change
  cases change with
  | settles h => obtain rfl | rfl := h <;> exact .inl ⟨rfl, rfl⟩
  | opens => exact .inl ⟨rfl, rfl⟩
  | votes => exact .inl ⟨rfl, rfl⟩
  | adoptsProposed hi => exact .inr ⟨rfl, rfl, .inl ⟨_, _, hi, rfl⟩⟩
  | adoptsVoted hi hpr => exact .inr ⟨rfl, rfl, .inr ⟨_, _, _, _, hi, hpr, rfl⟩⟩
  | powerOn hi => exact absurd hi hne

/-! ### A command frame by the phase of its port's transaction

No owning block reads the transaction, and none changes it: each operation has the same effect whatever transaction the
port has. So a frame whose arguments came in byte by byte is accepted as the frame whole (R148, R150). -/

namespace Sys2Proof.Machine

/-- The state with another transaction on one port. -/
def State.withTransaction (s : State) (p : Port) (x : Option Transaction) : State :=
  s.setPort p { s.port p with transaction := x }

/-- An answer whose state has another transaction on one port. -/
def Answer.withTransaction (a : Answer) (p : Port) (x : Option Transaction) : Answer :=
  { a with state := a.state.withTransaction p x }

section Transactions

variable (s : State) (p q : Port) (x : Option Transaction) (n : ConduitNo) (h : Handle)

/-! #### What the state says without its transactions -/

theorem State.withTransaction_port :
    (s.withTransaction p x).port q = if q = p then { s.port p with transaction := x } else s.port q :=
  s.setPort_port p q _

@[simp] theorem State.withTransaction_port_self :
    (s.withTransaction p x).port p = { s.port p with transaction := x } := s.setPort_port_self p _

@[simp] theorem State.withTransaction_port_state : ((s.withTransaction p x).port q).state = (s.port q).state := by
  rw [State.withTransaction_port]
  split
  · rename_i e; rw [e]
  · rfl

@[simp] theorem State.withTransaction_port_resetAsserted :
    ((s.withTransaction p x).port q).resetAsserted = (s.port q).resetAsserted := by
  rw [State.withTransaction_port]
  split
  · rename_i e; rw [e]
  · rfl

@[simp] theorem State.withTransaction_attached : (s.withTransaction p x).Attached q ↔ s.Attached q :=
  State.setPort_attached (s := s) (c := { s.port p with transaction := x }) rfl q

@[simp] theorem State.withTransaction_pool : (s.withTransaction p x).pool = s.pool := rfl
@[simp] theorem State.withTransaction_conduits : (s.withTransaction p x).conduits = s.conduits := rfl
@[simp] theorem State.withTransaction_events : (s.withTransaction p x).events = s.events := rfl
@[simp] theorem State.withTransaction_attention : (s.withTransaction p x).attention = s.attention := rfl
@[simp] theorem State.withTransaction_partition : (s.withTransaction p x).partition = s.partition := rfl
@[simp] theorem State.withTransaction_time : (s.withTransaction p x).time = s.time := rfl
@[simp] theorem State.withTransaction_choices : (s.withTransaction p x).choices = s.choices := rfl
@[simp] theorem State.withTransaction_pending : (s.withTransaction p x).pending = s.pending := rfl
@[simp] theorem State.withTransaction_segment : (s.withTransaction p x).segment h = s.segment h := rfl
@[simp] theorem State.withTransaction_conduit : (s.withTransaction p x).conduit n = s.conduit n := rfl
@[simp] theorem State.withTransaction_channel : (s.withTransaction p x).channel n = s.channel n := rfl

/-- Whatever else of a state is replaced, the transaction stays. -/
@[simp] theorem State.mk_withTransaction (pool : Pool) (conduits : Vector Conduit 24) (events : PerPort EventQueue)
    (attention : Attention) (partition : Partition) (time : TimeBase) (choices : Nat) (pending : List Instr) :
    State.mk (s.withTransaction p x).ports pool conduits events attention partition time choices pending =
      (State.mk s.ports pool conduits events attention partition time choices pending).withTransaction p x := rfl

@[simp] theorem Answer.mk_withTransaction (o : OutcomeCode) (c : Option ConduitNo) (k : Option Handle)
    (fields : List Byte) :
    Answer.mk (s.withTransaction p x) o c k fields = (Answer.mk s o c k fields).withTransaction p x := rfl

@[simp] theorem refuse_withTransaction (o : OutcomeCode) :
    refuse (s.withTransaction p x) o = (refuse s o).withTransaction p x := rfl

@[simp] theorem State.withTransaction_shownState : (s.withTransaction p x).shownState q = s.shownState q := by
  simp [State.shownState]

/-! #### The operations of the blocks -/

@[simp] theorem State.withTransaction_setSegment (g : Option Segment) :
    (s.withTransaction p x).setSegment h g = (s.setSegment h g).withTransaction p x := rfl

@[simp] theorem State.withTransaction_setChannel (ch : Option Channel) :
    (s.withTransaction p x).setChannel n ch = (s.setChannel n ch).withTransaction p x := rfl

@[simp] theorem State.withTransaction_updateChannel (f : Channel → Channel) :
    (s.withTransaction p x).updateChannel n f = (s.updateChannel n f).withTransaction p x := by
  unfold State.updateChannel
  rw [State.withTransaction_channel]
  split <;> rfl

@[simp] theorem State.withTransaction_appendEvent (e : Event) :
    (s.withTransaction p x).appendEvent q e = (s.appendEvent q e).withTransaction p x := by
  simp only [State.appendEvent, State.withTransaction_attached]
  split <;> simp

/-- Operations in a row that each leave the transaction alone. -/
theorem State.withTransaction_foldl {α : Type} {f : State → α → State}
    (hf : ∀ s a, f (s.withTransaction p x) a = (f s a).withTransaction p x) (l : List α) :
    l.foldl f (s.withTransaction p x) = (l.foldl f s).withTransaction p x := by
  induction l generalizing s with
  | nil => rfl
  | cons a l ih => rw [List.foldl_cons, hf, ih, List.foldl_cons]

@[simp] theorem State.withTransaction_appendEvents (ps : List Port) (e : Event) :
    (s.withTransaction p x).appendEvents ps e = (s.appendEvents ps e).withTransaction p x :=
  s.withTransaction_foldl p x (fun s q => s.withTransaction_appendEvent p q x e) ps

@[simp] theorem State.withTransaction_freeingNotice :
    (s.withTransaction p x).freeingNotice n = (s.freeingNotice n).withTransaction p x := by
  unfold State.freeingNotice
  rw [State.withTransaction_channel]
  split
  · rfl
  · split
    · rfl
    · split <;> simp

@[simp] theorem State.withTransaction_freeDescriptor :
    (s.withTransaction p x).freeDescriptor h = (s.freeDescriptor h).withTransaction p x := by
  unfold State.freeDescriptor
  rw [State.withTransaction_segment]
  split
  · rfl
  · split <;> simp

@[simp] theorem State.withTransaction_claim (c : Claim) :
    (s.withTransaction p x).claim c h = (s.claim c h).withTransaction p x := by
  unfold State.claim
  rw [State.withTransaction_segment]
  split
  · rfl
  · split
    · rfl
    · split <;> simp

@[simp] theorem State.withTransaction_claims (c : Claim) (hs : List Handle) :
    (s.withTransaction p x).claims c hs = (s.claims c hs).withTransaction p x :=
  s.withTransaction_foldl p x (fun s h => s.withTransaction_claim p x h c) hs

@[simp] theorem State.withTransaction_teardown :
    (s.withTransaction p x).teardown n = (s.teardown n).withTransaction p x := rfl

@[simp] theorem State.withTransaction_failOffer (r : OfferResult) (ps : List Port) :
    (s.withTransaction p x).failOffer n r ps = (s.failOffer n r ps).withTransaction p x := by
  simp [State.failOffer]

@[simp] theorem State.withTransaction_endConduit (r : EndReason) :
    (s.withTransaction p x).endConduit n r = (s.endConduit n r).withTransaction p x := by
  unfold State.endConduit
  rw [State.withTransaction_channel]
  split
  · rfl
  · simp

@[simp] theorem State.withTransaction_drainCheck :
    (s.withTransaction p x).drainCheck n = (s.drainCheck n).withTransaction p x := by
  unfold State.drainCheck
  rw [State.withTransaction_channel]
  split
  · rfl
  · split
    · split <;> simp
    · rfl

@[simp] theorem State.withTransaction_removeMember (r : GoneReason) :
    (s.withTransaction p x).removeMember n q r = (s.removeMember n q r).withTransaction p x := by
  unfold State.removeMember
  rw [State.withTransaction_channel]
  split
  · rfl
  · split
    · rfl
    · simp only [State.withTransaction_setChannel, State.withTransaction_appendEvents, State.withTransaction_claims]
      split <;> simp

@[simp] theorem State.withTransaction_updateEndpoint (f : Endpoint → Endpoint) :
    (s.withTransaction p x).updateEndpoint n q f = (s.updateEndpoint n q f).withTransaction p x :=
  s.withTransaction_updateChannel p x n _

@[simp] theorem State.withTransaction_sequenceOf : (s.withTransaction p x).sequenceOf h = s.sequenceOf h := rfl

@[simp] theorem State.withTransaction_readFields : (s.withTransaction p x).readFields h = s.readFields h := rfl

@[simp] theorem State.withTransaction_holdDeadline (limit : Nat) :
    (s.withTransaction p x).holdDeadline limit = s.holdDeadline limit := rfl

@[simp] theorem State.withTransaction_deadlineAfter (limit : Nat) :
    (s.withTransaction p x).deadlineAfter limit = s.deadlineAfter limit := rfl

@[simp] theorem State.withTransaction_takeHead (ch : Channel) :
    (s.withTransaction p x).takeHead q n ch h = (s.takeHead q n ch h).withTransaction p x := by
  simp [State.takeHead]

@[simp] theorem State.withTransaction_flushMember (e : Endpoint) :
    (s.withTransaction p x).flushMember n e = (s.flushMember n e).withTransaction p x := by
  unfold State.flushMember
  simp only [State.withTransaction_updateEndpoint, State.withTransaction_claims]
  split <;> simp

@[simp] theorem State.withTransaction_resolveProposal (pr : Proposal) (r : ProposalResult) :
    (s.withTransaction p x).resolveProposal pr r = (s.resolveProposal pr r).withTransaction p x := by
  simp [State.resolveProposal]

@[simp] theorem State.withTransaction_usageWithin (quotas : PerPort Quota) :
    (s.withTransaction p x).usageWithin quotas = s.usageWithin quotas := rfl

@[simp] theorem State.withTransaction_adoptProposal (pr : Proposal) :
    (s.withTransaction p x).adoptProposal pr = (s.adoptProposal pr).withTransaction p x := by
  unfold State.adoptProposal
  simp only [State.withTransaction_usageWithin]
  split <;> simp

@[simp] theorem State.withTransaction_abandonProposal :
    (s.withTransaction p x).abandonProposal q = (s.abandonProposal q).withTransaction p x := by
  unfold State.abandonProposal
  rw [State.withTransaction_partition]
  split <;> simp

@[simp] theorem State.withTransaction_firstVotes : (s.withTransaction p x).firstVotes q = s.firstVotes q := by
  simp [State.firstVotes]

@[simp] theorem State.withTransaction_makeProposal (quotas : PerPort Quota) :
    (s.withTransaction p x).makeProposal q quotas = (s.makeProposal q quotas).withTransaction p x := by
  unfold State.makeProposal
  simp only [State.withTransaction_partition, State.withTransaction_firstVotes, State.withTransaction_deadlineAfter,
    State.withTransaction_pool, State.withTransaction_conduits, State.withTransaction_events,
    State.withTransaction_attention, State.withTransaction_time, State.withTransaction_choices,
    State.withTransaction_pending, State.mk_withTransaction, State.withTransaction_appendEvents,
    State.withTransaction_adoptProposal]
  split <;> simp

/-! #### Joining and leaving -/

@[simp] theorem State.withTransaction_departConduit :
    (s.withTransaction p x).departConduit q n = (s.departConduit q n).withTransaction p x := by
  unfold State.departConduit
  rw [State.withTransaction_channel]
  split
  · rfl
  · split
    · split <;> simp
    · split
      · rfl
      · split <;> simp

@[simp] theorem State.withTransaction_departConduits :
    (s.withTransaction p x).departConduits q = (s.departConduits q).withTransaction p x :=
  s.withTransaction_foldl p x (fun s n => s.withTransaction_departConduit p q x n) allConduits

@[simp] theorem State.withTransaction_departAttention :
    (s.withTransaction p x).departAttention q = (s.departAttention q).withTransaction p x := by
  have refused := s.withTransaction_foldl p x
    (f := fun s e => s.appendEvent e.source (.attnRefused q e.vector))
    (fun s e => s.withTransaction_appendEvent p e.source x (.attnRefused q e.vector))
    (s.attention.queues.get q)
  simp [State.departAttention, refused]

/-- A controller replaced but for its transaction. -/
theorem State.withTransaction_setPort (f : PortController → PortController)
    (hf : ∀ c, f { c with transaction := x } = { f c with transaction := x }) :
    (s.withTransaction p x).setPort p (f ((s.withTransaction p x).port p)) =
      (s.setPort p (f (s.port p))).withTransaction p x := by
  simp [State.withTransaction, hf]

theorem State.withTransaction_attach :
    (s.withTransaction p x).attach p = (s.attach p).withTransaction p x := by
  have joined := s.withTransaction_setPort p x (fun c => { c with state := .attached, rotation := 23 }) (fun _ => rfl)
  unfold State.attach
  rw [joined]
  simp

theorem State.withTransaction_depart (cause : DepartureCause) (left : PortState) :
    (s.withTransaction p x).depart p cause left = (s.depart p cause left).withTransaction p x := by
  have gone := s.withTransaction_setPort p x
    (fun c => { c with state := left, outcome := OutcomeRecord.initial, rotation := 23 }) (fun _ => rfl)
  unfold State.depart
  rw [gone]
  simp [State.clearEvents]

/-! #### The owning blocks' answers -/

variable {s p x} in
/-- The checks a conduit command begins with do not read the transaction. -/
theorem State.withTransaction_onConduit {b : Byte} {k k' : ConduitNo → Channel → Answer}
    (hk : ∀ n ch, k' n ch = (k n ch).withTransaction p x) :
    (s.withTransaction p x).onConduit b k' = (s.onConduit b k).withTransaction p x := by
  unfold State.onConduit
  split
  · rfl
  · rw [State.withTransaction_channel]
    split
    · rfl
    · exact hk _ _

variable {s p x q} in
theorem State.withTransaction_asProducer {b : Byte} {k k' : ConduitNo → Channel → Answer}
    (hk : ∀ n ch, k' n ch = (k n ch).withTransaction p x) :
    (s.withTransaction p x).asProducer q b k' = (s.asProducer q b k).withTransaction p x :=
  State.withTransaction_onConduit (fun n ch => by split <;> simp [hk])

variable {s p x q} in
theorem State.withTransaction_asMember {b : Byte} {k k' : ConduitNo → Channel → Endpoint → Answer}
    (hk : ∀ n ch e, k' n ch e = (k n ch e).withTransaction p x) :
    (s.withTransaction p x).asMember q b k' = (s.asMember q b k).withTransaction p x :=
  State.withTransaction_onConduit (fun n ch => by
    split
    · rfl
    · split
      · rfl
      · exact hk _ _ _
      · exact hk _ _ _)

theorem withTransaction_nextEventAnswer :
    nextEventAnswer q (s.withTransaction p x) = (nextEventAnswer q s).withTransaction p x := by
  unfold nextEventAnswer
  rw [State.withTransaction_events]
  split <;> simp

theorem withTransaction_offerAnswer (ms cl w : Byte) (sz hl : Half) :
    offerAnswer q ms cl w sz hl (s.withTransaction p x) =
      (offerAnswer q ms cl w sz hl s).withTransaction p x := by
  have quota : (s.withTransaction p x).conduitQuotaAllows q = s.conduitQuotaAllows q := rfl
  have slot : (s.withTransaction p x).freeSlot? = s.freeSlot? := rfl
  unfold offerAnswer
  simp only [State.withTransaction_attached, quota, slot]
  split
  · rfl
  · split
    · rfl
    · split
      · rfl
      · split
        · rfl
        · split
          · rfl
          · split
            · rfl
            · simp [State.makeOffer]

theorem withTransaction_answerAnswer (b g ch wl : Byte) (sl : Half) :
    answerAnswer q b g ch wl sl (s.withTransaction p x) =
      (answerAnswer q b g ch wl sl s).withTransaction p x :=
  State.withTransaction_onConduit (fun n c => by
    rw [State.withTransaction_conduit]
    split
    · rfl
    · split
      · rfl
      · rfl
      · split
        · rfl
        · split
          · rfl
          · split
            · rfl
            · simp
            · split
              · simp only [State.recordAccept]
                split <;> simp
              · rfl)

theorem withTransaction_closeAnswer (b : Byte) :
    closeAnswer q b (s.withTransaction p x) = (closeAnswer q b s).withTransaction p x :=
  State.withTransaction_asProducer (fun n ch => by split <;> simp)

theorem withTransaction_leaveAnswer (b : Byte) :
    leaveAnswer q b (s.withTransaction p x) = (leaveAnswer q b s).withTransaction p x :=
  State.withTransaction_asMember (fun n ch e => by simp)

theorem withTransaction_flushAnswer (b : Byte) :
    flushAnswer q b (s.withTransaction p x) = (flushAnswer q b s).withTransaction p x :=
  State.withTransaction_asProducer (fun n ch => by
    have flushed := s.withTransaction_foldl p x (f := fun s e => s.flushMember n e)
      (fun s e => s.withTransaction_flushMember p x n e) ch.members
    split
    · rfl
    · simp [flushed]
    · simp [flushed])

theorem withTransaction_conduitInfoAnswer (b : Byte) :
    conduitInfoAnswer b (s.withTransaction p x) = (conduitInfoAnswer b s).withTransaction p x := by
  unfold conduitInfoAnswer
  split <;> rfl

theorem withTransaction_postAnswer (b : Byte) (length : Half) :
    postAnswer q b length (s.withTransaction p x) = (postAnswer q b length s).withTransaction p x :=
  State.withTransaction_asProducer (fun n ch => by
    have used : ∀ q, (s.withTransaction p x).sequenceInUse n q = s.sequenceInUse n q := fun _ => rfl
    have quota : ∀ l, (s.withTransaction p x).segmentQuotaAllows q l = s.segmentQuotaAllows q l := fun _ => rfl
    simp only [used, quota, State.withTransaction_pool]
    split
    · rfl
    · rfl
    · split
      · rfl
      · split
        · rfl
        · split
          · simp
          · split
            · rfl
            · split
              · rfl
              · split
                · rfl
                · simp [State.startFill])

theorem withTransaction_takeAnswer (b : Byte) :
    takeAnswer q b (s.withTransaction p x) = (takeAnswer q b s).withTransaction p x :=
  State.withTransaction_asMember (fun n ch e => by
    split
    · rfl
    · split <;> simp)

theorem withTransaction_takeAnyAnswer :
    takeAnyAnswer p (s.withTransaction p x) = (takeAnyAnswer p s).withTransaction p x := by
  have waiting : ∀ n, (s.withTransaction p x).waiting? p n = s.waiting? p n := fun _ => rfl
  have choice : (s.withTransaction p x).takeAnyChoice p = s.takeAnyChoice p := by
    simp only [State.takeAnyChoice, State.withTransaction_port_self]
    rfl
  unfold takeAnyAnswer
  simp only [choice, waiting]
  split
  · split <;> rfl
  · split
    · rfl
    · rename_i n _ _ ch _ h _
      have rotated := (s.takeHead p n ch h).withTransaction_setPort p x (fun c => { c with rotation := n })
        (fun _ => rfl)
      rw [State.withTransaction_takeHead, rotated]
      simp

theorem withTransaction_peekAnswer (b : Byte) :
    peekAnswer q b (s.withTransaction p x) = (peekAnswer q b s).withTransaction p x :=
  State.withTransaction_asMember (fun n ch e => by split <;> simp)

theorem withTransaction_readHeldAnswer (b : Byte) (sequence : Half) :
    readHeldAnswer q b sequence (s.withTransaction p x) =
      (readHeldAnswer q b sequence s).withTransaction p x :=
  State.withTransaction_asMember (fun n ch e => by split <;> simp)

theorem withTransaction_releaseAnswer (b : Byte) (sequence : Half) :
    releaseAnswer q b sequence (s.withTransaction p x) =
      (releaseAnswer q b sequence s).withTransaction p x :=
  State.withTransaction_asMember (fun n ch e => by
    split
    · simp
    · split <;> simp)

theorem withTransaction_attendAnswer (target vector : Byte) (argument : Half) :
    attendAnswer q target vector argument (s.withTransaction p x) =
      (attendAnswer q target vector argument s).withTransaction p x := by
  unfold attendAnswer
  split
  · rfl
  · split
    · rfl
    · simp only [State.withTransaction_attached]
      split
      · rfl
      · rw [State.withTransaction_attention]
        split <;> simp

theorem withTransaction_acceptAttnAnswer :
    acceptAttnAnswer q (s.withTransaction p x) = (acceptAttnAnswer q s).withTransaction p x := by
  unfold acceptAttnAnswer
  rw [State.withTransaction_attention]
  split <;> simp

theorem withTransaction_withdrawAttnAnswer (target : Byte) :
    withdrawAttnAnswer q target (s.withTransaction p x) =
      (withdrawAttnAnswer q target s).withTransaction p x := by
  unfold withdrawAttnAnswer
  split
  · rfl
  · split
    · rfl
    · rw [State.withTransaction_attention]
      split <;> simp

theorem withTransaction_proposeAnswer (quotas : PerPort QuotaArgument) :
    proposeAnswer q quotas (s.withTransaction p x) = (proposeAnswer q quotas s).withTransaction p x := by
  unfold proposeAnswer
  extract_lets wanted
  rw [State.withTransaction_partition, State.withTransaction_usageWithin]
  split
  · rfl
  · split
    · rfl
    · split
      · rfl
      · split <;> simp

theorem withTransaction_voteAnswer (id choice : Byte) :
    voteAnswer q id choice (s.withTransaction p x) = (voteAnswer q id choice s).withTransaction p x := by
  unfold voteAnswer
  rw [State.withTransaction_partition]
  split
  · rfl
  · split
    · rfl
    · split
      · rfl
      · split
        · rfl
        · simp
        · simp only [State.mk_withTransaction]
          split <;> simp

theorem withTransaction_cancelProposalAnswer (id : Byte) :
    cancelProposalAnswer q id (s.withTransaction p x) =
      (cancelProposalAnswer q id s).withTransaction p x := by
  unfold cancelProposalAnswer
  rw [State.withTransaction_partition]
  split
  · rfl
  · split
    · rfl
    · split <;> simp

end Transactions

/-! #### The frame -/

section Frames

variable {s : State} {p : Port} {c : Command} {args : List Byte} {named : Option ConduitNo} {owner : State → Answer}

/-- An acceptance writes the transaction anew: of the one before, only its header stays (R148, R158). -/
theorem State.accept_withTransaction {x y : Transaction} (hxy : y.header = x.header) (a : Answer)
    (z : Option Transaction) :
    State.accept p c named y (a.withTransaction p z) = State.accept p c named x a := by
  have same_reply : replyBytes c (a.withTransaction p z) = replyBytes c a := rfl
  unfold State.accept State.enterReply
  rw [same_reply, hxy]
  unfold State.writeOutcome
  simp only [Answer.withTransaction, State.withTransaction_port_self]
  split
  all_goals
    simp only [State.withTransaction, State.setPort_setPort, State.setPort_port_self]
    rfl

/-- What a frame does that is in the command phase, or goes on as its arguments phase has begun: the acceptance of the
port-state check's refusal or of the owning block's answer (R148, R150, R154). -/
theorem State.transact_of_continuedBy {shown : ShownState} {x : Transaction} (hs : s.shownState p = some shown)
    (hx : (s.port p).transaction = some x) (hgoes : x.phase.continuedBy c.code args = true) :
    s.transact p c args named owner =
      State.accept p c named x (match admission c shown with | some r => refuse s r | none => owner s) := by
  unfold State.transact
  simp only [hs, hx, hgoes]
  cases hph : x.phase with
  | reply => rw [hph] at hgoes; cases hgoes
  | payload => rw [hph] at hgoes; cases hgoes
  | command => cases admission c shown <;> rfl
  | arguments code received => cases admission c shown <;> rfl

/-- A frame that goes on as its arguments phase has begun is accepted as from the command phase (R148, R150). -/
theorem State.transact_of_arguments {received missing : List Byte} {shown : ShownState} {x : Transaction}
    (hs : s.shownState p = some shown) (hx : (s.port p).transaction = some x)
    (hphase : x.phase = .arguments c.code received)
    (ho : ∀ z, owner (s.withTransaction p z) = (owner s).withTransaction p z) :
    s.transact p c (received ++ missing) named owner =
      (s.withTransaction p (some { x with phase := .command, byteCount := 0 })).transact p c (received ++ missing)
        named owner := by
  have goes_on : x.phase.continuedBy c.code (received ++ missing) = true := by simp [hphase, Phase.continuedBy]
  have shown_too := (s.withTransaction_shownState p p (some { x with phase := .command, byteCount := 0 })).trans hs
  rw [State.transact_of_continuedBy hs hx goes_on,
    State.transact_of_continuedBy shown_too (by rw [State.withTransaction_port_self]) rfl]
  cases admission c shown with
  | some r => exact (State.accept_withTransaction rfl (refuse s r) _).symm
  | none => rw [ho]; exact (State.accept_withTransaction rfl (owner s) _).symm

/-- A port that ignores select, or carries no transaction, does not see a frame (R134, R148). -/
theorem State.transact_unseen (h : s.shownState p = none ∨ (s.port p).transaction = none) :
    s.transact p c args named owner = s := by
  unfold State.transact
  split
  · rename_i hs hx
    rw [hs, hx] at h
    exact h.elim nofun nofun
  · rfl

/-- A port already in a reply ignores the bytes shifted in (R157). -/
theorem State.transact_in_reply {x : Transaction} (hx : (s.port p).transaction = some x) (hph : x.phase = .reply) :
    s.transact p c args named owner = s := by
  unfold State.transact
  cases s.shownState p with
  | none => rfl
  | some shown => simp only [hx, hph]

/-- In the payload phase the bytes of a frame are payload (R162). -/
theorem State.transact_in_payload {x : Transaction} (hs : (s.shownState p).isSome = true)
    (hx : (s.port p).transaction = some x) (hph : x.phase = .payload) :
    s.transact p c args named owner = s.receivePayload p (c.code :: args) := by
  obtain ⟨shown, hs⟩ := Option.isSome_iff_exists.1 hs
  simp only [State.transact, hs, hx, hph]

end Frames

/-- Every row that is a host command is handed on to an owning block that leaves the transaction alone. -/
theorem exec_of_frame_untouched {i : Instr} {c : Command} {p : Port} {args : List Byte}
    (h : i.frame = some (c, p, args)) : ∃ owner : State → Answer,
      (∀ s, exec i s = .next (s.transact p c args (namedConduit c args) owner)) ∧
      ∀ s x, owner (s.withTransaction p x) = (owner s).withTransaction p x := by
  cases i <;> simp only [Instr.frame, Option.some.injEq, Prod.mk.injEq, reduceCtorEq] at h <;>
    obtain ⟨rfl, rfl, rfl⟩ := h <;> refine ⟨_, fun _ => rfl, fun s x => ?_⟩
  case status => rfl
  case attach => simp [State.withTransaction_attach]
  case detach => simp [State.withTransaction_depart]
  case nextEvent => exact withTransaction_nextEventAnswer ..
  case offer => exact withTransaction_offerAnswer ..
  case answer => exact withTransaction_answerAnswer ..
  case close => exact withTransaction_closeAnswer ..
  case leave => exact withTransaction_leaveAnswer ..
  case flush => exact withTransaction_flushAnswer ..
  case conduitInfo => exact withTransaction_conduitInfoAnswer ..
  case post => exact withTransaction_postAnswer ..
  case take => exact withTransaction_takeAnswer ..
  case takeAny => exact withTransaction_takeAnyAnswer ..
  case peek => exact withTransaction_peekAnswer ..
  case readHeld => exact withTransaction_readHeldAnswer ..
  case release => exact withTransaction_releaseAnswer ..
  case attend => exact withTransaction_attendAnswer ..
  case acceptAttn => exact withTransaction_acceptAttnAnswer ..
  case withdrawAttn => exact withTransaction_withdrawAttnAnswer ..
  case propose => exact withTransaction_proposeAnswer ..
  case vote => exact withTransaction_voteAnswer ..
  case cancelProposal => exact withTransaction_cancelProposalAnswer ..
  case readPartition => rfl
  case poolInfo => rfl
  case segmentInfo => rfl

/-- A DETACHED port takes six commands alone (R135, R155). -/
theorem admission_detached {c : Command}
    (h : c ∉ [Command.status, .attach, .poolInfo, .segmentInfo, .conduitInfo, .readPartition]) :
    admission c .detached = some .notAttached := by
  revert h
  cases c <;> simp [admission]

/-! ### The assertion of select -/

section Select

variable {s t : State} {p : Port}

/-! #### What a port shows behind a release -/

theorem SameSurroundings.shownState (h : SameSurroundings s t) (q : Port) : t.shownState q = s.shownState q := by
  unfold State.shownState
  rw [State.port_congr h.ports, h.time]

/-- What a port shows depends on its state and its reset line alone of what its controller holds (R133, R184). -/
theorem State.setPort_shownState {c : PortController} (hstate : c.state = (s.port p).state)
    (hline : c.resetAsserted = (s.port p).resetAsserted) : (s.setPort p c).shownState p = s.shownState p := by
  unfold State.shownState
  rw [State.setPort_port_self, State.setPort_time, hstate, hline]

theorem State.endTransfer_shownState (s : State) (p : Port) : (s.endTransfer p).shownState p = s.shownState p := by
  unfold State.endTransfer
  split
  · rfl
  · exact (State.setPort_shownState (by rfl) (by rfl)).trans ((s.claim_surroundings _ _).shownState p)

theorem State.completeFill_shownState (s : State) (p : Port) (h : Handle) (count : Nat) :
    (s.completeFill p h count).shownState p = s.shownState p := by
  have written : ∀ u o, SameSurroundings s u → (u.setOutcome p o).shownState p = s.shownState p := fun u o hu =>
    (State.setPort_shownState (by rfl) (by rfl)).trans (hu.shownState p)
  unfold State.completeFill
  split
  · rfl
  · split
    · exact written _ _ (s.freeDescriptor_surroundings h)
    · split
      · exact written _ _ (s.freeDescriptor_surroundings h)
      · exact written _ _ (s.deliver_surroundings h _ _ _ _)

theorem State.endTransaction_shownState (s : State) (p : Port) :
    (s.endTransaction p).shownState p = s.shownState p := State.setPort_shownState rfl rfl

/-- A release of select changes nothing of what the port shows. -/
theorem State.releaseSelect_shownState (s : State) (p : Port) : (s.releaseSelect p).shownState p = s.shownState p := by
  unfold State.releaseSelect
  split
  · rfl
  · split
    · exact s.endTransaction_shownState p
    · exact State.setPort_shownState rfl rfl
    · exact (State.endTransaction_shownState _ p).trans (s.endTransfer_shownState p)
    · split
      · exact s.endTransaction_shownState p
      · exact (State.endTransaction_shownState _ p).trans (s.completeFill_shownState p _ _)

theorem State.releaseSelect_of_silent (h : (s.port p).transaction = none) : s.releaseSelect p = s := by
  simp only [State.releaseSelect, h]

/-! #### The row -/

/-- The transaction that an assertion of select begins (R148, R158). -/
def State.freshTransaction (s : State) (p : Port) (shown : ShownState) : Transaction :=
  { header := s.statusHeader p shown, phase := .command, byteCount := 0, replyPosition := 4, reply := [] }

theorem exec_selectAsserted_of_shown {shown : ShownState} (hs : s.shownState p = some shown) :
    exec (.selectAsserted p) s = .next ((s.releaseSelect p).withTransaction p
      (some ((s.releaseSelect p).freshTransaction p shown))) := by
  simp only [exec, execSelectAsserted, hs]
  rfl

theorem exec_selectAsserted_ignored (hs : s.shownState p = none) : exec (.selectAsserted p) s = .next s := by
  simp only [exec, execSelectAsserted, hs]

/-- An assertion of select on a port that answers it is the release of what is in place and then the assertion
(notes/assumptions/4.md). -/
theorem exec_selectAsserted_released (hs : (s.shownState p).isSome = true) :
    exec (.selectAsserted p) s = exec (.selectAsserted p) (s.releaseSelect p) := by
  obtain ⟨shown, hs⟩ := Option.isSome_iff_exists.1 hs
  rw [exec_selectAsserted_of_shown hs,
    exec_selectAsserted_of_shown ((s.releaseSelect_shownState p).trans hs),
    State.releaseSelect_of_silent (s.releaseSelect_silent p)]

end Select

end Sys2Proof.Machine

open Sys2Proof Sys2Proof.Machine in
/-- Settles O27, by where the frame finds its port: the port-state check at its acceptance, and then the port that does
not see it, the two phases behind an acceptance, and the arguments phase. -/
theorem portStateAdmitsItsCommands : Obligations.PortStateAdmitsItsCommands := by
  intro i c p args s hf
  obtain ⟨owner, he, ho⟩ := exec_of_frame_untouched hf
  refine ⟨fun ha => exec_of_frame_refused hf ha rfl nofun,
    fun ha hc => exec_of_frame_refused hf ha (admission_detached hc) nofun, fun ha hc => ?_, fun h => ?_,
    fun x hx hph => ?_, fun x hs hx hph => ?_, fun x received missing hx hph hargs hs => ?_⟩
  · subst hc
    exact exec_of_frame_refused hf ha rfl nofun
  · rw [he, State.transact_unseen h]
  · rw [he, State.transact_in_reply hx hph]
  · rw [he, State.transact_in_payload hs hx hph]
  · subst hargs
    obtain ⟨shown, hs⟩ := Option.isSome_iff_exists.1 hs
    rw [he, he, State.transact_of_arguments hs hx hph (ho s)]
    rfl

open Sys2Proof Sys2Proof.Machine in
/-- Settles O34. -/
theorem selectBeginsATransaction : Obligations.SelectBeginsATransaction := by
  intro s p
  refine ⟨fun shown hs hx => ?_, exec_selectAsserted_ignored, fun _ hs t ht => ?_⟩
  · rw [exec_selectAsserted_of_shown hs, State.releaseSelect_of_silent hx]
    rfl
  · cases ht
    exact exec_selectAsserted_released hs

/-! ### The frames of R169, read back

A command frame is its code and its argument bytes, and the port controller reads it by the code: an unknown code, too
few argument bytes, or the command with its arguments (R149 to R152). -/

namespace Sys2Proof

section FramesReadBack

variable {p : Port} {c : Command} {i : Instr} {code : Byte} {args : List Byte}

/-- A two-byte field is read back from its two bytes (R167). -/
theorem halfOf_bytes (x : Half) : halfOf (x.extractLsb' 8 8) (x.extractLsb' 0 8) = x := by
  rw [halfOf, BitVec.extractLsb'_append_extractLsb'_eq_extractLsb' (by rfl)]
  exact BitVec.extractLsb'_eq_self

/-- No two commands share a code (R169). -/
theorem Command.ofCode?_code (c : Command) : Command.ofCode? c.code = some c := by cases c <;> rfl

/-- A frame carries as many argument bytes as its command does (R150). -/
theorem Instr.length_of_frame (h : i.frame = some (c, p, args)) : args.length = c.argumentCount := by
  cases i <;> cases h <;> rfl

/-- A command is built from its argument bytes, whatever bytes follow them (R150, R169). -/
theorem Command.build_of_frame (h : i.frame = some (c, p, args)) (rest : List Byte) :
    c.build p (args ++ rest) = some i := by
  cases i <;> cases h
  case offer | answer | post | readHeld | release | attend =>
    simp [Command.build, bigEndian, halfOf_bytes]
  case propose =>
    simp [Command.build, quotaArgumentBytes, QuotaArgument.bytes, bigEndian, halfOf_bytes]
  all_goals rfl

/-! #### What the input bytes of a transaction make -/

theorem Instr.ofInput_of_unknown (h : Command.ofCode? code = none) (rest : List Byte) :
    Instr.ofInput p (code :: rest) = some (.badCommand p code) := by
  simp only [Instr.ofInput, h]

theorem Instr.ofInput_of_incomplete (h : Command.ofCode? code = some c) (hargs : args.length < c.argumentCount) :
    Instr.ofInput p (code :: args) = some (.truncated p code args) := by
  simp only [Instr.ofInput, h, if_pos hargs]

theorem Instr.ofInput_of_frame (h : i.frame = some (c, p, args)) (rest : List Byte) :
    Instr.ofInput p (c.code :: args ++ rest) = some i := by
  have complete : ¬ (args ++ rest).length < c.argumentCount := by
    rw [List.length_append, Instr.length_of_frame h]
    omega
  rw [List.cons_append]
  simp only [Instr.ofInput, Command.ofCode?_code, if_neg complete, Command.build_of_frame h rest]

/-! #### Terms that stand for an occurrence -/

theorem Instr.wellFormed_badCommand :
    (Instr.badCommand p code).wellFormed = true ↔ Command.ofCode? code = none := by
  simp only [Instr.wellFormed, unknownCode, Option.isNone_iff_eq_none]

theorem Instr.wellFormed_truncated : (Instr.truncated p code args).wellFormed = true ↔
    ∃ c, Command.ofCode? code = some c ∧ args.length < c.argumentCount := by
  simp only [Instr.wellFormed, argumentsIncomplete]
  cases Command.ofCode? code <;> simp

end FramesReadBack

end Sys2Proof

open Sys2Proof Sys2Proof.Machine in
/-- Settles O5: the code names its command, and the command is built from its argument bytes. -/
theorem framesReadBackAsTheirCommands : Obligations.FramesReadBackAsTheirCommands := by
  refine ⟨fun i c p args rest hi => ⟨Instr.length_of_frame hi, Instr.ofInput_of_frame hi rest⟩,
    fun p code rest hw => Instr.ofInput_of_unknown (Instr.wellFormed_badCommand.1 hw) rest, fun p code args hw => ?_⟩
  obtain ⟨c, hc, hargs⟩ := Instr.wellFormed_truncated.1 hw
  exact Instr.ofInput_of_incomplete hc hargs

/-! ### The rows of the two framing refusals -/

namespace Sys2Proof.Machine

section FramingRows

variable {s : State} {p : Port} {code : Byte} {args : List Byte}

theorem exec_badCommand_of_unknown (h : Command.ofCode? code = none) :
    exec (.badCommand p code) s = .next (s.refuseCode p code) := by
  simp only [exec, execBadCommand, h, Option.isNone_none, if_true]

theorem exec_badCommand_of_known (h : Command.ofCode? code ≠ none) :
    exec (.badCommand p code) s = .refused .codeNamesACommand := by
  simp only [exec, execBadCommand, Option.isNone_iff_eq_none, if_neg h]

theorem exec_truncated_of_incomplete {c : Command} (h : Command.ofCode? code = some c)
    (hargs : args.length < c.argumentCount) :
    exec (.truncated p code args) s = .next (s.refuseTruncated p code args) := by
  simp only [exec, execTruncated, h, if_pos hargs]

theorem exec_truncated_of_no_occurrence
    (h : ¬ ∃ c, Command.ofCode? code = some c ∧ args.length < c.argumentCount) :
    exec (.truncated p code args) s = .refused .argumentsNotIncomplete := by
  simp only [exec, execTruncated]
  split
  · rename_i c hc
    exact if_neg (fun hargs => h ⟨c, hc, hargs⟩)
  · rfl

/-- A term is ill-formed only as a framing refusal that is none, and exec refuses it (notes/assumptions/11.md). -/
theorem exec_of_ill_formed {i : Instr} (h : i.wellFormed = false) :
    (∃ p code, i = .badCommand p code ∧ exec i s = .refused .codeNamesACommand) ∨
      (∃ p code args, i = .truncated p code args ∧ exec i s = .refused .argumentsNotIncomplete) := by
  cases i with
  | badCommand p code =>
    refine .inl ⟨p, code, rfl, exec_badCommand_of_known (fun hc => ?_)⟩
    rw [Instr.wellFormed_badCommand.2 hc] at h
    cases h
  | truncated p code args =>
    refine .inr ⟨p, code, args, rfl, exec_truncated_of_no_occurrence (fun hc => ?_)⟩
    rw [Instr.wellFormed_truncated.2 hc] at h
    cases h
  | _ => cases h

/-- Every row that stands for an occurrence has a next state. -/
theorem exec_of_well_formed {i : Instr} (h : i.wellFormed = true) : ∃ t, exec i s = .next t := by
  cases i with
  | badCommand p code => exact ⟨_, exec_badCommand_of_unknown (Instr.wellFormed_badCommand.1 h)⟩
  | truncated p code args =>
    obtain ⟨c, hc, hargs⟩ := Instr.wellFormed_truncated.1 h
    exact ⟨_, exec_truncated_of_incomplete hc hargs⟩
  | _ => exact ⟨_, rfl⟩

end FramingRows

end Sys2Proof.Machine

open Sys2Proof Sys2Proof.Machine in
/-- Settles O3. -/
theorem everyOccurrenceHasANextState : Obligations.EveryOccurrenceHasANextState :=
  fun _ _ => ⟨exec_of_well_formed, exec_of_ill_formed⟩

/-! ### The release of select, by the phase of the port's transaction -/

namespace Sys2Proof.Machine

section Release

variable {s : State} {p : Port} {x : Transaction}

/-- The release after an accepted read presents the transfer end claim (R15, R163). -/
theorem State.releaseSelect_of_transfer {h : Handle} (hX : s.transferHandle? p = some h) :
    s.releaseSelect p = (s.claim .transferEnd h).setPort p { s.port p with
      outcome := { (s.port p).outcome with handle := none }
      transaction := none } := by
  obtain ⟨x, hx, hph, -⟩ := State.transaction_of_transfer hX
  have hport : (s.claim .transferEnd h).port p = s.port p := State.port_congr (s.claim_surroundings _ _).ports p
  simp only [State.releaseSelect, hx, hph, State.endTransfer, hX, State.endTransaction, State.setPort_port_self,
    State.setPort_setPort, hport]

/-- The release of a transaction with neither a transfer nor a fill, and outside the arguments phase, only ends it
(R149, R164). -/
theorem State.releaseSelect_of_idle (hX : s.transferHandle? p = none) (hF : s.fillHandle? p = none)
    (harguments : ∀ x code received, (s.port p).transaction = some x → x.phase ≠ .arguments code received) :
    s.releaseSelect p = s.withTransaction p none := by
  cases hx : (s.port p).transaction with
  | none => rw [State.releaseSelect_of_silent hx, State.withTransaction, ← hx, State.setPort_port_eq]
  | some x =>
    unfold State.releaseSelect
    simp only [hx]
    cases hph : x.phase with
    | command => rfl
    | arguments code received => exact absurd hph (harguments x code received hx)
    | reply => simp only [State.endTransfer, hX]; rfl
    | payload => simp only [hF]; rfl

/-- A release in the arguments phase truncates the command (R152). -/
theorem State.releaseSelect_of_arguments {code : Byte} {received : List Byte} (hx : (s.port p).transaction = some x)
    (hph : x.phase = .arguments code received) : s.releaseSelect p = s.endTruncated p code := by
  simp only [State.releaseSelect, hx, hph]

/-- No payload bytes leave a fill with as many as its length allows as it is (R162). -/
theorem State.receivePayload_nil {h : Handle} {g : Segment} (hF : s.fillHandle? p = some h)
    (hg : s.segment h = some g) (hlength : g.payload = g.payload.take g.length) : s.receivePayload p [] = s := by
  obtain ⟨x, hx, -⟩ := State.transaction_of_fill hF
  have hstored : (s.segment h).map (Segment.stored []) = s.segment h := by
    rw [hg, Option.map_some, Segment.stored, List.append_nil, ← hlength]
  have hcount : ({ s.port p with transaction := some { x with byteCount := x.byteCount + 0 } } : PortController) =
      s.port p := by rw [Nat.add_zero, ← hx]
  have hkept : s.setSegment h (s.segment h) = s := by
    simp only [State.setSegment, State.segment, Fin.getElem_fin, Vector.set_getElem_self]
  rw [State.receivePayload_of_fill [] hF hx, hstored, List.length_nil, hcount, State.setPort_port_eq, hkept]

theorem exec_fillCompletion_of_fill {h : Handle} (hF : s.fillHandle? p = some h) (bytes : List Byte) :
    exec (.fillCompletion p bytes) s = .next ((s.receivePayload p bytes).releaseSelect p) := by
  simp only [exec, execFillCompletion, hF]

end Release

end Sys2Proof.Machine

open Sys2Proof Sys2Proof.Machine in
/-- Settles O50: by what the transaction holds at the release, which is a transfer, nothing, an incomplete command or
a fill. -/
theorem selectReleaseEndsTheTransfer : Obligations.SelectReleaseEndsTheTransfer := by
  intro s p x hx
  refine ⟨fun h hX => congrArg Host.Outcome.next (State.releaseSelect_of_transfer hX), fun hX hF harguments => ?_,
    fun code received hph => congrArg Host.Outcome.next (State.releaseSelect_of_arguments hx hph),
    fun h g hF hg hlength => ?_⟩
  · refine congrArg Host.Outcome.next (State.releaseSelect_of_idle hX hF (fun y code received hy => ?_))
    rw [hx] at hy
    cases hy
    exact harguments code received
  · rw [exec_fillCompletion_of_fill hF, State.receivePayload_nil hF hg hlength]
    rfl

/-! ### STATUS -/

namespace Sys2Proof.Machine

section Status

variable {s : State} {p : Port} {shown : ShownState} {x : Transaction}

/-- A command frame that is awaited finds neither a transfer nor a fill in its port's transaction (R148). -/
theorem State.Awaits.idle (ha : s.Awaits p shown) : s.transferHandle? p = none ∧ s.fillHandle? p = none := by
  obtain ⟨-, x, hx, hph⟩ := ha
  exact ⟨State.no_transfer_of_phase hx (by simp [hph]), State.no_fill_of_phase hx (by simp [hph])⟩

/-- The state behind an accepted STATUS. -/
def State.statusReplied (s : State) (p : Port) : State := s.setPort p ((s.port p).replying .status [])

/-- An accepted STATUS writes no record and has no reply (R156, R160). -/
theorem exec_status_of_awaits (ha : s.Awaits p shown) (hshown : shown ≠ .starting) :
    exec (.status p) s = .next (s.statusReplied p) := by
  have admitted : admission .status shown = none := by
    cases shown with
    | starting => exact absurd rfl hshown
    | detached => rfl
    | attached => rfl
  obtain ⟨x, hx, he⟩ := State.transact_of_awaits ha .status [] none (fun s => { state := s, outcome := .done })
  refine congrArg Host.Outcome.next (he.trans ?_)
  rw [admitted, State.statusReplied, PortController.replying, hx]
  rfl

theorem State.statusReplied_transaction (hx : (s.port p).transaction = some x) :
    ((s.statusReplied p).port p).transaction =
      some { x with phase := .reply, byteCount := 1, replyPosition := 4, reply := [] } := by
  rw [State.statusReplied, State.setPort_port_self, PortController.replying, hx]
  rfl

/-- The record that an accepted STATUS leaves may be a read's, but then it names no transfer any more (R163). -/
theorem State.statusReplied_idle (hp : PortLaw s) (ha : s.Awaits p shown) :
    (s.statusReplied p).transferHandle? p = none ∧ (s.statusReplied p).fillHandle? p = none := by
  obtain ⟨x, hx⟩ := ha.transaction
  have hreply := State.statusReplied_transaction hx
  have hrecord : ((s.statusReplied p).port p).outcome = (s.port p).outcome := by
    rw [State.statusReplied, State.setPort_port_self]
    rfl
  refine ⟨?_, State.no_fill_of_phase hreply nofun⟩
  simp only [State.transferHandle?, hreply, hrecord, true_and, ite_eq_right_iff]
  exact fun hread => hp.readEnds p hread ha.idle.1

theorem State.statusReplied_shiftsHeader (hx : (s.port p).transaction = some x) {position : Nat}
    (hposition : position < 4) : (s.statusReplied p).shiftedOut p position = x.header.bytes[position]? := by
  have hlength : x.header.bytes.length = 4 := rfl
  simp only [State.shiftedOut, State.statusReplied_transaction hx, if_pos hposition]
  rw [List.getD_eq_getElem?_getD, List.getElem?_eq_getElem (hlength ▸ hposition), Option.getD_some]

theorem State.statusReplied_shiftsZeros (hp : PortLaw s) (ha : s.Awaits p shown) {position : Nat}
    (hposition : 4 ≤ position) : (s.statusReplied p).shiftedOut p position = some 0 := by
  obtain ⟨x, hx⟩ := ha.transaction
  have hbehind : ¬ position < 4 := by omega
  simp only [State.shiftedOut, State.statusReplied_transaction hx, if_neg hbehind, List.length_nil, Nat.not_lt_zero,
    if_false, State.transferByte, (State.statusReplied_idle hp ha).1]

/-- The release behind an accepted STATUS only ends the transaction (R161, R164). -/
theorem exec_transferEnd_of_statusReplied (hp : PortLaw s) (ha : s.Awaits p shown) :
    exec (.transferEnd p) (s.statusReplied p) = .next (s.withTransaction p none) := by
  obtain ⟨x, hx⟩ := ha.transaction
  obtain ⟨hX, hF⟩ := State.statusReplied_idle hp ha
  refine congrArg Host.Outcome.next ((State.releaseSelect_of_idle hX hF (fun y code received hy => ?_)).trans ?_)
  · rw [State.statusReplied_transaction hx] at hy
    cases hy
    nofun
  · rw [State.withTransaction, State.statusReplied, State.setPort_port_self, State.setPort_setPort]
    rfl

end Status

end Sys2Proof.Machine

open Sys2Proof Sys2Proof.Machine in
/-- Settles O30. -/
theorem statusChangesNothing : Obligations.StatusChangesNothing := by
  intro s p shown x hp ha hx
  refine ⟨fun hshown => ⟨s.statusReplied p, exec_status_of_awaits ha hshown, rfl,
    fun _ => State.statusReplied_shiftsHeader hx, fun _ => State.statusReplied_shiftsZeros hp ha,
    exec_transferEnd_of_statusReplied hp ha⟩, fun hshown => ?_⟩
  subst hshown
  exact exec_of_frame_refused rfl ha rfl nofun

/-! ### Frames shifted in byte by byte

Behind each complete byte of a frame the transaction is in the arguments phase, until the last argument byte is the
acceptance of the frame's row (R148, R149, R150). -/

namespace Sys2Proof.Machine

section ShiftedIn

variable {s : State} {p : Port} {shown : ShownState} {x : Transaction} {c : Command} {i : Instr} {code b : Byte}
  {args : List Byte}

/-! #### The framing refusals on a port that awaits a command -/

theorem State.refuseCode_of_command (hs : s.shownState p = some shown) (hx : (s.port p).transaction = some x)
    (hph : x.phase = .command) : s.refuseCode p code = s.setPort p { s.port p with
      outcome := { outcome := .badCommand, command := code, conduit := none, handle := none }
      transaction := some { x with phase := .reply, byteCount := 1, replyPosition := 4, reply := [0x11] } } := by
  simp only [State.refuseCode, hs, hx, hph]
  rfl

theorem State.refuseTruncated_of_command (hs : s.shownState p = some shown) (hx : (s.port p).transaction = some x)
    (hph : x.phase = .command) : s.refuseTruncated p code args = s.endTruncated p code := by
  simp only [State.refuseTruncated, hs, hx, hph, Phase.continuedBy, if_true]

/-! #### One byte -/

theorem State.shiftIn_in_command (hs : s.shownState p = some shown) (hx : (s.port p).transaction = some x)
    (hph : x.phase = .command) : s.shiftIn p b = s.frameReceived p x [b] := by
  simp only [State.shiftIn, hs, hx, hph]

theorem State.shiftIn_in_arguments (hs : s.shownState p = some shown) (hx : (s.port p).transaction = some x)
    (hph : x.phase = .arguments code args) : s.shiftIn p b = s.frameReceived p x (code :: args ++ [b]) := by
  simp only [State.shiftIn, hs, hx, hph]

/-- A byte that comes in a reply is ignored (R157). -/
theorem State.shiftIn_in_reply (hx : (s.port p).transaction = some x) (hph : x.phase = .reply) :
    s.shiftIn p b = s := by
  unfold State.shiftIn
  cases s.shownState p with
  | none => rfl
  | some shown => simp only [hx, hph]

theorem State.shiftInAll_cons (s : State) (p : Port) (b : Byte) (bytes : List Byte) :
    s.shiftInAll p (b :: bytes) = (s.shiftIn p b).shiftInAll p bytes := rfl

theorem State.shiftInAll_concat (s : State) (p : Port) (bytes : List Byte) (b : Byte) :
    s.shiftInAll p (bytes ++ [b]) = (s.shiftInAll p bytes).shiftIn p b := by
  simp only [State.shiftInAll, List.foldl_append, List.foldl_cons, List.foldl_nil]

theorem State.shiftInAll_in_reply (hx : (s.port p).transaction = some x) (hph : x.phase = .reply)
    (bytes : List Byte) : s.shiftInAll p bytes = s := by
  induction bytes with
  | nil => rfl
  | cons b bytes ih => rw [State.shiftInAll_cons, State.shiftIn_in_reply hx hph, ih]

/-! #### What the bytes received so far make -/

/-- A transaction in the arguments phase of a command, with these argument bytes in (R148). -/
def Transaction.awaiting (x : Transaction) (c : Command) (args : List Byte) : Transaction :=
  { x with phase := .arguments c.code args, byteCount := 1 + args.length }

theorem Transaction.awaiting_awaiting (x : Transaction) (c : Command) (args more : List Byte) :
    (x.awaiting c args).awaiting c more = x.awaiting c more := rfl

/-- Argument bytes still missing leave the transaction in the arguments phase (R148). -/
theorem State.frameReceived_of_incomplete (hargs : args.length < c.argumentCount) :
    s.frameReceived p x (c.code :: args) = s.withTransaction p (some (x.awaiting c args)) := by
  simp only [State.frameReceived, Instr.ofInput_of_incomplete (Command.ofCode?_code c) hargs, List.length_cons,
    Nat.add_comm args.length 1]
  rfl

/-- The last argument byte is the acceptance of the row that the bytes spell (R150). -/
theorem State.frameReceived_of_frame (hi : i.frame = some (c, p, args)) :
    s.frameReceived p x (c.code :: args) = s.afterRow i := by
  have spelled : Instr.ofInput p (c.code :: args) = some i := by
    rw [← List.append_nil (c.code :: args)]
    exact Instr.ofInput_of_frame hi []
  unfold State.frameReceived
  rw [spelled]
  cases i with
  | truncated q code bytes => cases hi
  | _ => rfl

/-- A code that names no command is BAD_COMMAND at byte 0 (R151). -/
theorem State.frameReceived_of_unknown (h : Command.ofCode? code = none) :
    s.frameReceived p x [code] = s.refuseCode p code := by
  simp only [State.frameReceived, Instr.ofInput_of_unknown h, State.afterRow, exec_badCommand_of_unknown h]

/-! #### Whole frames -/

/-- A frame whose argument bytes are still incomplete (R148, R150). -/
theorem State.shiftInAll_of_incomplete (hs : s.shownState p = some shown) (hx : (s.port p).transaction = some x)
    (hph : x.phase = .command) (hargs : args.length < c.argumentCount) :
    s.shiftInAll p (c.code :: args) = s.withTransaction p (some (x.awaiting c args)) := by
  induction args using List.reverseRecOn with
  | nil =>
    rw [State.shiftInAll_cons, State.shiftIn_in_command hs hx hph, State.frameReceived_of_incomplete hargs]
    rfl
  | append_singleton received b ih =>
    have earlier : received.length < c.argumentCount := by
      rw [List.length_append] at hargs
      omega
    have shown_too := (s.withTransaction_shownState p p (some (x.awaiting c received))).trans hs
    rw [← List.cons_append, State.shiftInAll_concat, ih earlier,
      State.shiftIn_in_arguments (x := x.awaiting c received) (code := c.code) (args := received) shown_too
        (by rw [State.withTransaction_port_self]) rfl,
      List.cons_append, State.frameReceived_of_incomplete hargs, Transaction.awaiting_awaiting]
    simp only [State.withTransaction, State.setPort_setPort, State.setPort_port_self]

/-- A row whose argument bytes wait in the arguments phase is accepted there as it is in the command phase, where it has
none yet (R148, R150). -/
theorem exec_of_frame_awaiting {received missing : List Byte} (hi : i.frame = some (c, p, received ++ missing))
    (hs : s.shownState p = some shown) (hx : (s.port p).transaction = some x) (hph : x.phase = .command) :
    exec i (s.withTransaction p (some (x.awaiting c received))) = exec i s := by
  obtain ⟨owner, hexec, untouched⟩ := exec_of_frame_untouched hi
  have shown_too := (s.withTransaction_shownState p p (some (x.awaiting c received))).trans hs
  have begins : x.phase.continuedBy c.code (received ++ missing) = true := by rw [hph]; rfl
  have goes_on : (x.awaiting c received).phase.continuedBy c.code (received ++ missing) = true := by
    simp [Transaction.awaiting, Phase.continuedBy]
  rw [hexec, hexec, State.transact_of_continuedBy hs hx begins,
    State.transact_of_continuedBy shown_too (by rw [State.withTransaction_port_self]) goes_on]
  cases admission c shown with
  | some r => exact congrArg Host.Outcome.next (State.accept_withTransaction rfl (refuse s r) _)
  | none =>
    simp only [untouched]
    exact congrArg Host.Outcome.next (State.accept_withTransaction rfl (owner s) _)

theorem exec_eq_next_afterRow (hi : i.frame = some (c, p, args)) : exec i s = .next (s.afterRow i) := by
  obtain ⟨owner, hexec⟩ := exec_of_frame hi
  simp only [State.afterRow, hexec]

/-- A whole frame is the acceptance of its row (R149, R150). -/
theorem State.shiftInAll_of_frame (hi : i.frame = some (c, p, args)) (hs : s.shownState p = some shown)
    (hx : (s.port p).transaction = some x) (hph : x.phase = .command) :
    s.shiftInAll p (c.code :: args) = s.afterRow i := by
  cases args using List.reverseRecOn with
  | nil =>
    rw [State.shiftInAll_cons, State.shiftIn_in_command hs hx hph, State.frameReceived_of_frame hi]
    rfl
  | append_singleton received b =>
    have earlier : received.length < c.argumentCount := by
      rw [← Instr.length_of_frame hi, List.length_append]
      exact Nat.lt_succ_self _
    have shown_too := (s.withTransaction_shownState p p (some (x.awaiting c received))).trans hs
    rw [← List.cons_append, State.shiftInAll_concat, State.shiftInAll_of_incomplete hs hx hph earlier,
      State.shiftIn_in_arguments (x := x.awaiting c received) (code := c.code) (args := received) shown_too
        (by rw [State.withTransaction_port_self]) rfl,
      List.cons_append, State.frameReceived_of_frame hi]
    have same_row := exec_of_frame_awaiting hi hs hx hph
    rw [exec_eq_next_afterRow hi, exec_eq_next_afterRow hi] at same_row
    exact Host.Outcome.next.inj same_row

/-- An unknown code is refused at byte 0, and the bytes that follow it fall into the reply (R151, R157). -/
theorem State.shiftInAll_of_unknown (h : Command.ofCode? code = none) (hs : s.shownState p = some shown)
    (hx : (s.port p).transaction = some x) (hph : x.phase = .command) (rest : List Byte) :
    s.shiftInAll p (code :: rest) = s.refuseCode p code := by
  rw [State.shiftInAll_cons, State.shiftIn_in_command hs hx hph, State.frameReceived_of_unknown h,
    State.refuseCode_of_command hs hx hph]
  exact State.shiftInAll_in_reply (by rw [State.setPort_port_self]) rfl rest

/-- A release of select with argument bytes still missing is the TRUNCATED of the bytes received (R152). -/
theorem exec_transferEnd_of_incomplete (hs : s.shownState p = some shown) (hx : (s.port p).transaction = some x)
    (hph : x.phase = .command) (hargs : args.length < c.argumentCount) :
    exec (.transferEnd p) (s.shiftInAll p (c.code :: args)) = exec (.truncated p c.code args) s := by
  rw [State.shiftInAll_of_incomplete hs hx hph hargs,
    exec_truncated_of_incomplete (Command.ofCode?_code c) hargs, State.refuseTruncated_of_command hs hx hph]
  refine congrArg Host.Outcome.next ((State.releaseSelect_of_arguments (x := x.awaiting c args)
    (by rw [State.withTransaction_port_self]) rfl).trans ?_)
  simp only [State.endTruncated, State.withTransaction, State.setPort_port_self, State.setPort_setPort]

end ShiftedIn

end Sys2Proof.Machine

open Sys2Proof Sys2Proof.Machine in
/-- Settles O35: the two refusals as rows, and then the frame by what its bytes have made so far. -/
theorem framingRefusalsWriteTheRecord : Obligations.FramingRefusalsWriteTheRecord := by
  refine ⟨fun s p shown code ⟨hs, x, hx, hph⟩ => ⟨fun h => ?_, fun c args hc hargs => ?_⟩,
    fun s p shown ⟨hs, x, hx, hph⟩ => ⟨fun c args hargs => ⟨?_, ?_⟩, fun i c args hi => ?_, fun code rest h => ?_⟩⟩
  · rw [exec_badCommand_of_unknown h, State.refuseCode_of_command hs hx hph, hx]
    rfl
  · rw [exec_truncated_of_incomplete hc hargs, State.refuseTruncated_of_command hs hx hph]
    rfl
  · rw [State.shiftInAll_of_incomplete hs hx hph hargs, hx]
    rfl
  · exact exec_transferEnd_of_incomplete hs hx hph hargs
  · rw [exec_eq_next_afterRow hi, State.shiftInAll_of_frame hi hs hx hph]
  · rw [exec_badCommand_of_unknown h, State.shiftInAll_of_unknown h hs hx hph]

/-! ### The controllers of the other ports -/

namespace Sys2Proof.Machine

section OtherControllers

variable {s t : State} {p q : Port}

theorem State.receivePayload_port_ne (s : State) (bytes : List Byte) (hq : q ≠ p) :
    (s.receivePayload p bytes).port q = s.port q := by
  cases hF : s.fillHandle? p with
  | none => rw [State.receivePayload_of_no_fill bytes hF]
  | some h =>
    obtain ⟨x, hx, -⟩ := State.transaction_of_fill hF
    rw [State.receivePayload_of_fill bytes hF hx, State.setSegment_port, State.setPort_port_ne _ _ hq]

/-! #### Commands -/

theorem Quiet.elsewhere {a : Answer} (h : Quiet s a) (q : Port) : a.state.port q = s.port q :=
  State.port_congr h.ports q

theorem SameSurroundings.elsewhere (h : SameSurroundings s t) (q : Port) : t.port q = s.port q :=
  State.port_congr h.ports q

/-- Every row that is a host command is handed on to an owning block that leaves the other ports' controllers alone. -/
theorem exec_of_frame_elsewhere {i : Instr} {c : Command} {args : List Byte} (h : i.frame = some (c, p, args)) :
    ∃ owner : State → Answer, (∀ s, exec i s = .next (s.transact p c args (namedConduit c args) owner)) ∧
      ∀ s q, q ≠ p → (owner s).state.port q = s.port q := by
  cases i <;> cases h <;> refine ⟨_, fun _ => rfl, fun s q hq => ?_⟩
  case status => rfl
  case attach => exact (s.attach_lasting p).elsewhere q hq
  case detach => exact s.depart_port_ne hq _ _
  case nextEvent => exact (nextEventAnswer_quiet p s).elsewhere q
  case offer => exact (offerAnswer_surroundings p _ _ _ _ _ s).elsewhere q
  case answer => exact (answerAnswer_surroundings p _ _ _ _ _ s).elsewhere q
  case close => exact (closeAnswer_surroundings p _ s).elsewhere q
  case leave => exact (leaveAnswer_surroundings p _ s).elsewhere q
  case flush => exact (flushAnswer_surroundings p _ s).elsewhere q
  case conduitInfo => exact (conduitInfoAnswer_quiet _ s).elsewhere q
  case post => exact (postAnswer_surroundings p _ _ s).elsewhere q
  case take => exact (takeAnswer_surroundings p _ s).elsewhere q
  case takeAny => exact (takeAnyAnswer_lasting p s).elsewhere q hq
  case peek => exact (peekAnswer_surroundings p _ s).elsewhere q
  case readHeld => exact (readHeldAnswer_surroundings p _ _ s).elsewhere q
  case release => exact (releaseAnswer_surroundings p _ _ s).elsewhere q
  case attend => exact (attendAnswer_quiet p _ _ _ s).elsewhere q
  case acceptAttn => exact (acceptAttnAnswer_quiet p s).elsewhere q
  case withdrawAttn => exact (withdrawAttnAnswer_quiet p _ s).elsewhere q
  case propose => exact (proposeAnswer_quiet p _ s).elsewhere q
  case vote => exact (voteAnswer_quiet p _ _ s).elsewhere q
  case cancelProposal => exact (cancelProposalAnswer_quiet p _ s).elsewhere q
  case readPartition => rfl
  case poolInfo => rfl
  case segmentInfo => rfl

/-- A command frame leaves the other ports' controllers as its answer does. -/
theorem State.transact_port_ne {c : Command} {args : List Byte} {named : Option ConduitNo} {owner : State → Answer}
    (hq : q ≠ p) (ho : (owner s).state.port q = s.port q) :
    (s.transact p c args named owner).port q = s.port q := by
  obtain he | ⟨bytes, he⟩ | ⟨x, shown, -, -, -, -, he⟩ := s.transact_cases p c args named owner
  · rw [he]
  · rw [he, s.receivePayload_port_ne bytes hq]
  · rw [he, State.accept_port_ne hq]
    cases admission c shown with
    | some r => rfl
    | none => exact ho

theorem exec_of_frame_port_ne {i : Instr} {c : Command} {args : List Byte} (hi : i.frame = some (c, p, args))
    (h : exec i s = .next t) (hq : q ≠ p) : t.port q = s.port q := by
  obtain ⟨owner, hexec, elsewhere⟩ := exec_of_frame_elsewhere hi
  cases (hexec s).symm.trans h
  exact State.transact_port_ne hq (elsewhere s q hq)

/-! #### Events -/

theorem State.refuseCode_port_ne (s : State) (code : Byte) (hq : q ≠ p) :
    (s.refuseCode p code).port q = s.port q := by
  unfold State.refuseCode
  split
  · split
    · rfl
    · rfl
    · exact s.receivePayload_port_ne _ hq
    · exact State.setPort_port_ne _ _ hq
  · rfl

theorem State.refuseTruncated_port_ne (s : State) (code : Byte) (args : List Byte) (hq : q ≠ p) :
    (s.refuseTruncated p code args).port q = s.port q := by
  unfold State.refuseTruncated
  split
  · split
    · exact State.setPort_port_ne _ _ hq
    · rfl
  · rfl

theorem exec_badCommand_port_ne {code : Byte} (h : exec (.badCommand p code) s = .next t) (hq : q ≠ p) :
    t.port q = s.port q := by
  by_cases hc : Command.ofCode? code = none
  · cases (exec_badCommand_of_unknown hc).symm.trans h
    exact s.refuseCode_port_ne code hq
  · cases (exec_badCommand_of_known hc).symm.trans h

theorem exec_truncated_port_ne {code : Byte} {args : List Byte} (h : exec (.truncated p code args) s = .next t)
    (hq : q ≠ p) : t.port q = s.port q := by
  by_cases hc : ∃ c, Command.ofCode? code = some c ∧ args.length < c.argumentCount
  · obtain ⟨c, hc, hargs⟩ := hc
    cases (exec_truncated_of_incomplete hc hargs).symm.trans h
    exact s.refuseTruncated_port_ne code args hq
  · cases (exec_truncated_of_no_occurrence hc).symm.trans h

theorem exec_fillCompletion_port_ne {bytes : List Byte} (h : exec (.fillCompletion p bytes) s = .next t) (hq : q ≠ p) :
    t.port q = s.port q := by
  simp only [exec, execFillCompletion, Host.Outcome.next.injEq] at h
  subst h
  split
  · rw [State.releaseSelect_port_ne _ hq, s.receivePayload_port_ne bytes hq]
  · rfl

/-- Whatever the port was in the middle of, its reset line ends, and whatever it leaves (R140, R141). -/
theorem exec_portResetAsserted_port_ne (h : exec (.portResetAsserted p) s = .next t) (hq : q ≠ p) :
    t.port q = s.port q := by
  have line (u : State) : (u.setResetLine p true).port q = u.port q := State.setPort_port_ne _ _ hq
  simp only [exec, execPortResetAsserted, Host.Outcome.next.injEq] at h
  subst h
  split
  · rw [line, State.depart_port_ne _ hq, s.abort_port_ne hq]
  · rw [line, State.enterHeld, State.setPort_port_ne _ _ hq, s.abort_port_ne hq]
  · split
    · rw [line, State.resetOutcome, State.setPort_port_ne _ _ hq, s.endTransaction_port_ne hq]
    · exact line s

theorem exec_portResetReleased_port_ne (h : exec (.portResetReleased p) s = .next t) (hq : q ≠ p) :
    t.port q = s.port q := by
  by_cases hline : (s.port p).resetAsserted = true
  · by_cases hrun : s.time.reset = .running
    · cases (exec_portResetReleased_operation hline hrun).symm.trans h
      exact State.setPort_port_ne _ _ hq
    · cases (exec_portResetReleased_before hline hrun).symm.trans h
      exact State.setPort_port_ne _ _ hq
  · cases (exec_portResetReleased_unasserted (Bool.eq_false_iff.2 hline)).symm.trans h
    rfl

theorem exec_selectAsserted_port_ne (h : exec (.selectAsserted p) s = .next t) (hq : q ≠ p) :
    t.port q = s.port q := by
  cases hs : s.shownState p with
  | none => cases (exec_selectAsserted_ignored hs).symm.trans h; rfl
  | some shown =>
    cases (exec_selectAsserted_of_shown hs).symm.trans h
    rw [State.withTransaction, State.setPort_port_ne _ _ hq, s.releaseSelect_port_ne hq]

/-! #### Expiries -/

theorem State.expireDueBut_ports (s : State) (rows : List Expiry) : (s.expireDueBut rows).ports = s.ports :=
  s.takeDue_keeps (P := fun t => t.ports = s.ports) (fun t x h => (t.takeExpiry_ports x).trans h) (fun _ _ h => h) rows _
    rfl

/-- An advance in operation changes no port controller. -/
theorem State.advance_ports (hr : s.time.reset = .running) : s.advance.ports = s.ports := by
  have counted (u : State) (hu : u.time.reset = .running) : u.countAdvance.ports = u.ports := by
    simp only [State.countAdvance, hu]
  rw [State.advance_running hr, State.advanced, State.expireDueBut_ports,
    counted _ (State.expireDue_running hr)]
  exact s.expireDueBut_ports []

end OtherControllers

end Sys2Proof.Machine

open Sys2Proof Sys2Proof.Machine in
/-- Settles O18: row by row, and an expiry is taken by its owning block. -/
theorem onePortsCommandLeavesOtherPortControllers : Obligations.OnePortsCommandLeavesOtherPortControllers := by
  intro i s t h
  refine ⟨fun c p args hi q hq => exec_of_frame_port_ne hi h hq, fun p hi q hq => ?_, fun hi hr => ?_⟩
  · obtain rfl | rfl | rfl | rfl | ⟨code, rfl⟩ | ⟨code, args, rfl⟩ | ⟨bytes, rfl⟩ := hi
    · cases h; exact s.releaseSelect_port_ne hq
    · exact exec_portResetAsserted_port_ne h hq
    · exact exec_portResetReleased_port_ne h hq
    · exact exec_selectAsserted_port_ne h hq
    · exact exec_badCommand_port_ne h hq
    · exact exec_truncated_port_ne h hq
    · exact exec_fillCompletion_port_ne h hq
  · obtain rfl | rfl | ⟨n, rfl⟩ | ⟨n, p, q, rfl⟩ := hi <;> cases h
    · exact State.advance_ports hr
    · exact s.takeExpiry_ports .proposal
    · exact s.takeExpiry_ports (.offer n)
    · exact s.takeExpiry_ports (.hold n p q)

/-! ### The advance and its expiries -/

namespace Sys2Proof.Machine

section Advance

variable {s : State} {x y z : Expiry} {rows : List Expiry}

/-! #### What is due -/

theorem State.mem_dueExpiries : x ∈ s.dueExpiries ↔ s.Places x s.time.counter := by
  simp [State.dueExpiries, State.Places]

theorem State.dueBut_nil (s : State) : s.dueBut [] = s.dueExpiries := by simp [State.dueBut]

theorem State.dueBut_of_none_due (h : s.dueExpiries = []) (rows : List Expiry) : s.dueBut rows = [] := by
  simp [State.dueBut, h]

theorem State.expireDueBut_of_none_due (h : s.dueExpiries = []) (rows : List Expiry) : s.expireDueBut rows = s := by
  rw [State.expireDueBut, State.dueBut_of_none_due h]
  rfl

/-- One that is due alone is taken as its row would take it. -/
theorem State.expireDueBut_of_one_due (h : s.dueExpiries = [x]) (hx : x ∉ rows) :
    s.expireDueBut rows = s.takeExpiry x := by
  have due : s.dueBut rows = [x] := by simp [State.dueBut, h, hx]
  simp only [State.expireDueBut, due, List.length_singleton, State.takeDue]

theorem State.dueExpiries_count (s : State) (x : Expiry) : s.dueExpiries.count x =
    s.placedDeadlines.countP (fun d => d.2 == s.time.counter && d.1 == x) := by
  rw [State.dueExpiries, List.count, List.countP_map, List.countP_filter]
  refine List.countP_congr (fun d _ => ?_)
  simp [and_comm]

/-- A due expiry taken is due fewer times. -/
theorem State.takeExpiry_count_lt (hl : ConduitLaw s) (hx : x ∈ s.dueExpiries) :
    (s.takeExpiry x).dueExpiries.count x < s.dueExpiries.count x := by
  rw [State.dueExpiries_count, State.dueExpiries_count, s.takeExpiry_time]
  exact State.takeExpiry_countP_lt hl (State.mem_dueExpiries.1 hx) (by simp)

/-- Nothing is due behind an expiry that was not due before it (R180). -/
theorem State.due_of_takeExpiry (hl : ConduitLaw s) (hz : z ∈ (s.takeExpiry x).dueExpiries) : z ∈ s.dueExpiries := by
  have hcarries : Carries s.Attached .nothing s (s.takeExpiry x) := (Carries.refl _ s).takeExpiry x
  have hplaced := State.mem_dueExpiries.1 hz
  obtain ⟨hs, -⟩ | hnew := hcarries.placing.placed _ _ hplaced
  · rw [hcarries.counter] at hs
    exact State.mem_dueExpiries.2 hs
  · have hcome := (hcarries.keeps_law hl).placed_anew hplaced hcarries.counter hnew
    rw [State.timeRemaining_eq_zero.2 rfl] at hcome
    omega

/-- An expiry that is not due has no effect (R181). -/
theorem State.takeExpiry_of_not_due (h : x ∉ s.dueExpiries) : s.takeExpiry x = s := by
  rw [State.mem_dueExpiries] at h
  cases x with
  | offer n =>
    simp only [State.takeExpiry, State.lapseOffer]
    split
    · rfl
    · rename_i ch hc
      split
      · rename_i d hst
        exact if_neg (fun hd : d = s.time.counter => h (State.places_offer.2 ⟨ch, hc, hd ▸ hst⟩))
      · rfl
      · rfl
  | proposal =>
    simp only [State.takeExpiry, State.lapseProposal]
    split
    · rfl
    · rename_i pr hpr
      exact if_neg (fun hd => h (State.places_proposal.2 ⟨pr, hpr, hd⟩))
  | hold n p q =>
    simp only [State.takeExpiry, State.lapseHold]
    split
    · rfl
    · rename_i d hd
      obtain ⟨ch, e, hc, he, hmem, hseq, ht⟩ := State.dueHold?_some hd
      obtain ⟨hemem, hep⟩ := Channel.endpoint?_some he
      exact absurd (State.places_hold.2 ⟨ch, hc, e, hemem, hep, d, hmem, hseq, ht⟩) h

/-! #### Two due at once -/

/-- Of two that are due, behind the one taken the other is taken as its row would take it: it is due alone, or, where
the first has removed its deadline, no more. -/
theorem State.takeDue_second (hl : ConduitLaw s) (hdue : s.dueExpiries.Perm [x, y]) :
    State.takeDue [] 1 (s.takeExpiry x) = (s.takeExpiry x).takeExpiry y := by
  have hx : x ∈ s.dueExpiries := hdue.mem_iff.2 List.mem_cons_self
  have fewer : (s.takeExpiry x).dueExpiries.length < 2 := by
    have := State.takeExpiry_dueBut_lt (rows := []) hl (by rw [State.dueBut_nil]; exact hx)
    rwa [State.dueBut_nil, State.dueBut_nil, hdue.length_eq] at this
  rw [State.takeDue, State.dueBut_nil]
  match hleft : (s.takeExpiry x).dueExpiries with
  | [] => exact (State.takeExpiry_of_not_due (by rw [hleft]; exact List.not_mem_nil)).symm
  | [z] =>
    have hz : z = x ∨ z = y := by
      have : z ∈ s.dueExpiries := State.due_of_takeExpiry (x := x) hl (by rw [hleft]; exact List.mem_cons_self)
      simpa using hdue.mem_iff.1 this
    have hzy : z = y := by
      refine hz.elim (fun hzx => ?_) id
      subst hzx
      by_contra hne
      have once := State.takeExpiry_count_lt hl hx
      rw [hleft, hdue.count_eq, List.count_cons_self, List.count_cons_self, List.count_cons_of_ne (Ne.symm hne)] at once
      exact absurd once (Nat.lt_irrefl _)
    subst hzy
    rfl
  | _ :: _ :: _ =>
    rw [hleft] at fewer
    simp only [List.length_cons] at fewer
    omega

/-- Two that are due are taken one behind the other, and the free choice says which is first (R181). -/
theorem State.expireDueBut_of_two_due (hl : ConduitLaw s) (hdue : s.dueExpiries = [x, y]) :
    ∃ first second, (first = x ∧ second = y ∨ first = y ∧ second = x) ∧
      s.expireDueBut [] = (State.takeExpiry { s with choices := s.choices + 1 } first).takeExpiry second := by
  have hl' : ConduitLaw { s with choices := s.choices + 1 } := hl.congr (fun _ ha => ha) rfl
  have hdue' : ({ s with choices := s.choices + 1 } : State).dueExpiries = [x, y] := hdue
  have taken : s.expireDueBut [] = State.takeDue [] 1
      (State.takeExpiry { s with choices := s.choices + 1 } (pickExpiry s.choices x [y])) := by
    rw [State.expireDueBut, State.dueBut_nil, hdue, List.length_cons, List.length_singleton, State.takeDue,
      State.dueBut_nil, hdue]
  rw [taken]
  have picked : pickExpiry s.choices x [y] = x ∨ pickExpiry s.choices x [y] = y := by
    simpa using pickExpiry_mem s.choices x [y]
  obtain hp | hp := picked <;> rw [hp]
  · exact ⟨x, y, .inl ⟨rfl, rfl⟩, State.takeDue_second hl' (by rw [hdue'])⟩
  · exact ⟨y, x, .inr ⟨rfl, rfl⟩, State.takeDue_second hl' (by rw [hdue']; exact .swap y x [])⟩

/-! #### The advance in operation -/

/-- The Time Base behind an advance in operation (R179). -/
def State.counted (s : State) : State :=
  { s with time := { counter := s.time.counter + 1, divider := 0, reset := .running } }

theorem State.countAdvance_of_running (hr : s.time.reset = .running) : s.countAdvance = s.counted := by
  simp only [State.countAdvance, hr]
  rfl

theorem exec_intervalAdvance_of_running (hr : s.time.reset = .running) :
    exec .intervalAdvance s = .next (s.expireDue.counted.expireDueBut (leadingExpiries s.pending)) := by
  rw [← State.countAdvance_of_running (State.expireDue_running hr)]
  exact congrArg Host.Outcome.next (State.advance_running hr)

/-- Where no deadline is left over, the advance counts and takes the expiries it reaches. -/
theorem exec_intervalAdvance_of_none_due (hr : s.time.reset = .running) (hdue : s.dueExpiries = []) :
    exec .intervalAdvance s = .next (s.counted.expireDueBut (leadingExpiries s.pending)) := by
  have none_left : s.expireDue = s := State.expireDueBut_of_none_due hdue []
  rw [exec_intervalAdvance_of_running hr, none_left]

theorem State.counted_none_due (h : ∀ d ∈ s.placedDeadlines, d.2 ≠ s.time.counter + 1) :
    s.counted.dueExpiries = [] :=
  List.eq_nil_iff_forall_not_mem.2 (fun x hx => h (x, s.time.counter + 1) (State.mem_dueExpiries.1 hx) rfl)

/-- What an advance leaves due is left to the rows directly behind it. -/
theorem exec_intervalAdvance_due (hr : s.time.reset = .running) (hl : ConduitLaw s) {t : State}
    (ht : exec .intervalAdvance s = .next t) (hx : x ∈ t.dueExpiries) : x ∈ leadingExpiries s.pending := by
  cases (congrArg Host.Outcome.next (State.advance_running hr)).symm.trans ht
  refine (State.advanced_remaining hl hr (State.mem_dueExpiries.1 hx)).resolve_left ?_
  rw [State.timeRemaining_eq_zero.2 rfl]
  exact Nat.not_succ_le_zero 0

theorem exec_intervalAdvance_of_held (hr : s.time.reset = .held) : exec .intervalAdvance s = .next s := by
  simp only [exec, execIntervalAdvance, State.advance, State.countAdvance, hr]

theorem exec_intervalAdvance_of_startUp (hr : s.time.reset = .startUp) :
    exec .intervalAdvance s = .next s.endStartUp := by
  simp only [exec, execIntervalAdvance, State.advance, State.countAdvance, hr]

theorem exec_endOfStartUp_of_startUp (hr : s.time.reset = .startUp) : exec .endOfStartUp s = .next s.endStartUp := by
  simp only [exec, execEndOfStartUp, hr, if_true]

theorem exec_endOfStartUp_outside (hr : s.time.reset ≠ .startUp) : exec .endOfStartUp s = .next s := by
  simp only [exec, execEndOfStartUp, if_neg hr]

end Advance

end Sys2Proof.Machine

open Sys2Proof Sys2Proof.Machine in
/-- Settles O58: by the phase of the part, and in operation by how many deadlines the advance reaches. -/
theorem advanceCountsAndEndsStartUp : Obligations.AdvanceCountsAndEndsStartUp := by
  refine ⟨fun s => ⟨fun hr hdue hnew => ?_, fun hr => ?_, exec_intervalAdvance_of_held, fun hr => ⟨?_, ?_⟩,
    exec_endOfStartUp_outside⟩, fun s counted hr hdue hl hcounted => ?_⟩
  · rw [exec_intervalAdvance_of_none_due hr hdue, State.expireDueBut_of_none_due (State.counted_none_due hnew)]
    rfl
  · have htime : s.expireDue.time = s.time := s.expireDueBut_time []
    rw [exec_intervalAdvance_of_running hr, State.counted, htime]
  · rw [exec_intervalAdvance_of_startUp hr, exec_endOfStartUp_of_startUp hr]
  · exact exec_endOfStartUp_of_startUp hr
  · obtain rfl : counted = s.counted := hcounted
    have hlcounted : ConduitLaw s.counted := hl.congr (fun _ ha => ha) rfl
    rw [exec_intervalAdvance_of_none_due hr hdue]
    refine ⟨fun t ht x hx => ?_, fun i x hi hone hx => ?_, fun i j x y hi hj htwo hrows => ?_⟩
    · exact exec_intervalAdvance_due hr hl ((exec_intervalAdvance_of_none_due hr hdue).trans ht) hx
    · rw [exec_of_expiry hi, State.expireDueBut_of_one_due hone hx]
    · rw [hrows]
      obtain ⟨first, second, ⟨rfl, rfl⟩ | ⟨rfl, rfl⟩, htaken⟩ := State.expireDueBut_of_two_due hlcounted htwo
      · exact ⟨i, j, .inl ⟨rfl, rfl⟩, _, _, exec_of_expiry hi _, exec_of_expiry hj _, congrArg _ htaken⟩
      · exact ⟨j, i, .inr ⟨rfl, rfl⟩, _, _, exec_of_expiry hj _, exec_of_expiry hi _, congrArg _ htaken⟩

/-! ### The Time Base behind the other rows -/

namespace Sys2Proof.Machine

section TimeBaseAside

variable {s t : State} {p : Port}

/-! #### Transactions -/

theorem State.receivePayload_time (s : State) (p : Port) (bytes : List Byte) :
    (s.receivePayload p bytes).time = s.time := by
  cases hF : s.fillHandle? p with
  | none => rw [State.receivePayload_of_no_fill bytes hF]
  | some h =>
    obtain ⟨x, hx, -⟩ := State.transaction_of_fill hF
    rw [State.receivePayload_of_fill bytes hF hx, State.setSegment_time, State.setPort_time]

theorem State.endTransfer_time (s : State) (p : Port) : (s.endTransfer p).time = s.time := by
  unfold State.endTransfer
  split
  · rfl
  · exact (s.claim_surroundings .transferEnd _).time

theorem State.completeFill_time (s : State) (p : Port) (h : Handle) (count : Nat) :
    (s.completeFill p h count).time = s.time := by
  unfold State.completeFill
  split
  · rfl
  · split
    · exact (s.freeDescriptor_surroundings h).time
    · split
      · exact (s.freeDescriptor_surroundings h).time
      · exact (s.deliver_surroundings h _ _ _ _).time

/-- A release of select takes no time, whatever it ends (R152, R162, R163). -/
theorem State.releaseSelect_time (s : State) (p : Port) : (s.releaseSelect p).time = s.time := by
  unfold State.releaseSelect
  split
  · rfl
  · split
    · rfl
    · rfl
    · exact s.endTransfer_time p
    · split
      · rfl
      · exact s.completeFill_time p _ _

theorem State.abort_time (s : State) (p : Port) : (s.abort p).time = s.time := by
  unfold State.abort
  split
  · exact (s.freeDescriptor_surroundings _).time
  · exact s.endTransfer_time p

theorem State.refuseCode_time (s : State) (p : Port) (code : Byte) : (s.refuseCode p code).time = s.time := by
  unfold State.refuseCode
  split
  · split
    · rfl
    · rfl
    · exact s.receivePayload_time p _
    · rfl
  · rfl

theorem State.refuseTruncated_time (s : State) (p : Port) (code : Byte) (args : List Byte) :
    (s.refuseTruncated p code args).time = s.time := by
  unfold State.refuseTruncated
  split
  · split <;> rfl
  · rfl

/-! #### Commands -/

theorem takeAnyAnswer_time (p : Port) (s : State) : (takeAnyAnswer p s).state.time = s.time := by
  obtain he | ⟨n, u, hs, he⟩ := takeAnyAnswer_cases p s
  · rw [he]
  · rw [he]; exact hs.time

/-- Every row that is a host command is handed on to an owning block that leaves the Time Base alone. -/
theorem exec_of_frame_timeless {i : Instr} {c : Command} {args : List Byte} (h : i.frame = some (c, p, args)) :
    ∃ owner : State → Answer, (∀ s, exec i s = .next (s.transact p c args (namedConduit c args) owner)) ∧
      ∀ s, (owner s).state.time = s.time := by
  cases i <;> cases h <;> refine ⟨_, fun _ => rfl, fun s => ?_⟩
  case status => rfl
  case attach => exact s.attach_time p
  case detach => exact s.depart_time p _ _
  case nextEvent => exact nextEventAnswer_time p s
  case offer => exact (offerAnswer_surroundings p _ _ _ _ _ s).time
  case answer => exact (answerAnswer_surroundings p _ _ _ _ _ s).time
  case close => exact (closeAnswer_surroundings p _ s).time
  case leave => exact (leaveAnswer_surroundings p _ s).time
  case flush => exact (flushAnswer_surroundings p _ s).time
  case conduitInfo => rw [State.conduitInfo_state]
  case post => exact (postAnswer_surroundings p _ _ s).time
  case take => exact (takeAnswer_surroundings p _ s).time
  case takeAny => exact takeAnyAnswer_time p s
  case peek => exact (peekAnswer_surroundings p _ s).time
  case readHeld => exact (readHeldAnswer_surroundings p _ _ s).time
  case release => exact (releaseAnswer_surroundings p _ _ s).time
  case attend => exact attendAnswer_time p _ _ _ s
  case acceptAttn => exact acceptAttnAnswer_time p s
  case withdrawAttn => exact withdrawAttnAnswer_time p _ s
  case propose => exact proposeAnswer_time p _ s
  case vote => exact voteAnswer_time p _ _ s
  case cancelProposal => exact cancelProposalAnswer_time p _ s
  case readPartition => rfl
  case poolInfo => rfl
  case segmentInfo => rfl

/-- A command frame moves time as its answer does. -/
theorem State.transact_time {c : Command} {args : List Byte} {named : Option ConduitNo} {owner : State → Answer}
    (ho : (owner s).state.time = s.time) : (s.transact p c args named owner).time = s.time := by
  obtain he | ⟨bytes, he⟩ | ⟨x, shown, -, -, -, -, he⟩ := s.transact_cases p c args named owner
  · rw [he]
  · rw [he, s.receivePayload_time p bytes]
  · rw [he, State.accept_time]
    cases admission c shown with
    | some r => rfl
    | none => exact ho

/-- A command takes no time (notes/assumptions/2.md). -/
theorem exec_of_frame_time {i : Instr} {c : Command} {args : List Byte} (hi : i.frame = some (c, p, args))
    (h : exec i s = .next t) : t.time = s.time := by
  obtain ⟨owner, hexec, timeless⟩ := exec_of_frame_timeless hi
  cases (hexec s).symm.trans h
  exact State.transact_time (timeless s)

/-! #### Events -/

theorem exec_badCommand_time {code : Byte} (h : exec (.badCommand p code) s = .next t) : t.time = s.time := by
  by_cases hc : Command.ofCode? code = none
  · cases (exec_badCommand_of_unknown hc).symm.trans h
    exact s.refuseCode_time p code
  · cases (exec_badCommand_of_known hc).symm.trans h

theorem exec_truncated_time {code : Byte} {args : List Byte} (h : exec (.truncated p code args) s = .next t) :
    t.time = s.time := by
  by_cases hc : ∃ c, Command.ofCode? code = some c ∧ args.length < c.argumentCount
  · obtain ⟨c, hc, hargs⟩ := hc
    cases (exec_truncated_of_incomplete hc hargs).symm.trans h
    exact s.refuseTruncated_time p code args
  · cases (exec_truncated_of_no_occurrence hc).symm.trans h

theorem exec_fillCompletion_time {bytes : List Byte} (h : exec (.fillCompletion p bytes) s = .next t) :
    t.time = s.time := by
  simp only [exec, execFillCompletion, Host.Outcome.next.injEq] at h
  subst h
  split
  · rw [State.releaseSelect_time, s.receivePayload_time p bytes]
  · rfl

/-- Neither the end of the transaction nor the departure takes time (R140, R141). -/
theorem exec_portResetAsserted_time (h : exec (.portResetAsserted p) s = .next t) : t.time = s.time := by
  have line (u : State) : (u.setResetLine p true).time = u.time := State.setPort_time u p _
  simp only [exec, execPortResetAsserted, Host.Outcome.next.injEq] at h
  subst h
  split
  · rw [line, State.depart_time, s.abort_time p]
  · rw [line, State.enterHeld, State.setPort_time, s.abort_time p]
  · split
    · rw [line, State.resetOutcome, State.setPort_time, State.endTransaction, State.setPort_time]
    · exact line s

theorem exec_portResetReleased_time (h : exec (.portResetReleased p) s = .next t) : t.time = s.time := by
  by_cases hline : (s.port p).resetAsserted = true
  · by_cases hrun : s.time.reset = .running
    · cases (exec_portResetReleased_operation hline hrun).symm.trans h
      rfl
    · cases (exec_portResetReleased_before hline hrun).symm.trans h
      rfl
  · cases (exec_portResetReleased_unasserted (Bool.eq_false_iff.2 hline)).symm.trans h
    rfl

theorem exec_selectAsserted_time (h : exec (.selectAsserted p) s = .next t) : t.time = s.time := by
  cases hs : s.shownState p with
  | none => cases (exec_selectAsserted_ignored hs).symm.trans h; rfl
  | some shown =>
    cases (exec_selectAsserted_of_shown hs).symm.trans h
    rw [State.withTransaction_time, s.releaseSelect_time p]

/-- A lapse row takes its expiry, and no time. -/
theorem exec_of_expiry_time {i : Instr} {x : Expiry} (hi : expiryOf? i = some x) (h : exec i s = .next t) :
    t.time = s.time := by
  cases (exec_of_expiry hi s).symm.trans h
  exact s.takeExpiry_time x

end TimeBaseAside

end Sys2Proof.Machine

open Sys2Proof Sys2Proof.Machine in
/-- Settles O17: a command by its frame, and the events row by row. -/
theorem onlyTheTimeBaseRowsMoveTime : Obligations.OnlyTheTimeBaseRowsMoveTime := by
  intro i s t h hadvance hstart hasserted hreleased
  cases hi : i.frame with
  | some frame => exact exec_of_frame_time hi h
  | none =>
    cases i with
    | badCommand p code => exact exec_badCommand_time h
    | truncated p code args => exact exec_truncated_time h
    | fillCompletion p bytes => exact exec_fillCompletion_time h
    | transferEnd p => cases h; exact s.releaseSelect_time p
    | portResetAsserted p => exact exec_portResetAsserted_time h
    | portResetReleased p => exact exec_portResetReleased_time h
    | globalResetAsserted => exact absurd rfl hasserted
    | globalResetReleased => exact absurd rfl hreleased
    | intervalAdvance => exact absurd rfl hadvance
    | endOfStartUp => exact absurd rfl hstart
    | offerLapse n => exact exec_of_expiry_time rfl h
    | proposalLapse => exact exec_of_expiry_time rfl h
    | holdLapse n p q => exact exec_of_expiry_time rfl h
    | selectAsserted p => exact exec_selectAsserted_time h
    | _ => cases hi

/-! ### The reference clock and the global reset -/

namespace Sys2Proof.Machine

section ClockAndReset

variable {s : State}

/-! #### One period of the reference clock -/

theorem step_of_no_pending (h : s.pending = []) : step s = .next s.referencePeriod := by
  simp only [step, h]

theorem State.referencePeriod_of_held (hr : s.time.reset = .held) : s.referencePeriod = s := by
  simp only [State.referencePeriod, hr]

theorem State.countAdvance_of_startUp (hr : s.time.reset = .startUp) : s.countAdvance = s.endStartUp := by
  simp only [State.countAdvance, hr]

/-- Outside global reset, and with no deadline left over, a period is counted by the divider or is the advance. -/
theorem State.referencePeriod_of_none_due (hr : s.time.reset ≠ .held) (hdue : s.dueExpiries = []) :
    s.referencePeriod =
      if s.time.divider + 1 < Config.periodsPerInterval then
        { s with time := { s.time with divider := s.time.divider + 1 } }
      else s.countAdvance.expireDue := by
  have none_left : s.expireDue = s := State.expireDueBut_of_none_due hdue []
  unfold State.referencePeriod
  rw [none_left]
  split
  · contradiction
  · rfl
  · rfl

theorem State.referencePeriod_within (hr : s.time.reset ≠ .held) (hdue : s.dueExpiries = [])
    (h : s.time.divider + 1 < Config.periodsPerInterval) :
    s.referencePeriod = { s with time := { s.time with divider := s.time.divider + 1 } } :=
  (State.referencePeriod_of_none_due hr hdue).trans (if_pos h)

theorem State.referencePeriod_last (hr : s.time.reset ≠ .held) (hdue : s.dueExpiries = [])
    (h : Config.periodsPerInterval ≤ s.time.divider + 1) : s.referencePeriod = s.countAdvance.expireDue :=
  (State.referencePeriod_of_none_due hr hdue).trans (if_neg (Nat.not_lt.2 h))

/-! #### The release of the global reset -/

theorem exec_globalResetReleased_of_held (hr : s.time.reset = .held) :
    exec .globalResetReleased s = .next { s with time := { s.time with reset := .startUp } } := by
  simp only [exec, execGlobalResetReleased, if_pos hr]

theorem exec_globalResetReleased_outside (hr : s.time.reset ≠ .held) : exec .globalResetReleased s = .next s := by
  simp only [exec, execGlobalResetReleased, if_neg hr]

end ClockAndReset

end Sys2Proof.Machine

open Sys2Proof Sys2Proof.Machine in
/-- Settles O2: by the phase of the part, and outside global reset by whether the period is the interval's last. -/
theorem idleStepIsOneClockPeriod : Obligations.IdleStepIsOneClockPeriod := by
  intro s hidle
  rw [step_of_no_pending hidle]
  refine ⟨fun hr => ?_, fun hr hdue hwithin => ?_, fun hr hdue hlast => ?_, fun hr hdue hlast => ?_⟩
  · rw [State.referencePeriod_of_held hr]
  · rw [State.referencePeriod_within hr hdue hwithin]
  · rw [State.referencePeriod_last (by rw [hr]; nofun) hdue hlast, State.countAdvance_of_running hr, State.counted]
  · rw [State.referencePeriod_last (by rw [hr]; nofun) hdue hlast, State.countAdvance_of_startUp hr]

open Sys2Proof Sys2Proof.Machine in
/-- Settles O59: the asserted reset is State.globalReset, with each controller at its initial value but for its line. -/
theorem globalResetRestoresPowerOn : Obligations.GlobalResetRestoresPowerOn :=
  fun _ => ⟨rfl, exec_globalResetReleased_of_held, exec_globalResetReleased_outside⟩

/-! ### The front of the queue

A step with a command waiting; step_of_no_pending is its counterpart for the empty queue. -/

namespace Sys2Proof.Machine

theorem step_of_pending_cons {s : State} {i : Instr} {rest : List Instr} (h : s.pending = i :: rest) :
    step s = exec i { s with pending := rest } := by
  simp only [step, h]

end Sys2Proof.Machine

open Sys2Proof Sys2Proof.Machine in
/-- Settles O1: the branch of a step for a queue that is not empty. -/
theorem stepTakesTheFrontCommand : Obligations.StepTakesTheFrontCommand :=
  fun _ _ _ hfront => step_of_pending_cons hfront
